-- ==== Sys2Proof/Word.lean ====
section
/-! DEFINITION. The words of the block: bytes, the 75-bit command word, and what the host can put on the command
stream (spec/00_scope.md R10, R12; spec/30_encoding.md R70, R71). -/

namespace Sys2Proof

/-- A byte, 0..255 (00_scope.md R10). -/
abbrev Byte := BitVec 8

/-- A command word, CMDW[74:0] (30_encoding.md R71). -/
abbrev CmdWord := BitVec 75

/-- The 64-bit state vector: bit j is the state of ButtonId j, 1 = ON (20_memory.md R46). -/
abbrev Buttons := BitVec 64

/-- A ButtonId, 0..63 (00_scope.md R8, R15). -/
abbrev ButtonId := Fin 64

/-- One entry of the host's stream (20_memory.md R50). -/
inductive Request where
  /-- One command word (30_encoding.md R70, R71). -/
  | command (w : CmdWord)
  /-- Bytes of the inbound transport, to be fed in this order: the FEEDS of 30_encoding.md R79.
  DESIGN CHOICE, log entry 4. -/
  | wire (bytes : List Byte)
deriving DecidableEq, Repr

end Sys2Proof
end

