-- ==== Sys2Proof/Config.lean ====
section
/-! DEFINITION. The constants of spec/00_scope.md R8, the two parameters of R9 (MASK and MAX_FRAME) and the free
values of spec/70_reset_and_hazards.md R230. -/

namespace Sys2Proof.Config

/-- Start marker, 240 (R8). -/
abbrev sox : Byte := 240#8
/-- End marker, 247 (R8). -/
abbrev eox : Byte := 247#8
/-- HDR, the three header bytes (0, 1, 97) (R8). -/
abbrev hdr1 : Byte := 0#8
abbrev hdr2 : Byte := 1#8
abbrev hdr3 : Byte := 97#8
/-- DEV_ID (R8). -/
abbrev devId : Byte := 2#8
/-- OP_SYNC (R8). -/
abbrev opSync : Byte := 4#8
/-- OP_FACTORY_RESET (R8). -/
abbrev opFactoryReset : Byte := 6#8
/-- OP_REQUEST (R8). -/
abbrev opRequest : Byte := 7#8
/-- OP_MAP (R8). -/
abbrev opMap : Byte := 11#8
/-- N_COLS (R8). -/
abbrev nCols : Nat := 6
/-- N_SLOTS (R8). -/
abbrev nSlots : Nat := 14
/-- HALF: entries 0..6 are low, 7..13 high (R8). -/
abbrev half : Nat := 7
/-- MAP_PAYLOAD_LEN (R8). -/
abbrev mapPayloadLen : Nat := 128

/-- The shape of an index-mask table: column, slot, and the ButtonId that drives it or NULL. The type gives WF1 of
10_state.md R31; cells outside columns 0..5 and slots 0..13 are never read. -/
abbrev Mask := Nat → Nat → Option ButtonId

/-- WF2 (10_state.md R31): `MASK[0][0] = 0`, and no other cell of the table holds 0. -/
def Mask.Wf2 (m : Mask) : Prop :=
  m 0 0 = some 0 ∧ ∀ c k, c < nCols → k < nSlots → m c k = some 0 → c = 0 ∧ k = 0

/-- MASK_INJECTIVE (10_state.md R31): no ButtonId appears in two cells. An optional premise, not assumed. -/
def Mask.Injective (m : Mask) : Prop :=
  ∀ c k c' k' id, c < nCols → k < nSlots → c' < nCols → k' < nSlots →
    m c k = some id → m c' k' = some id → c = c' ∧ k = k'

/-- The cells of the device's table that the spec leaves open (91_not_in_source.md N1). Nothing constrains it. -/
opaque openCell : Nat → Nat → Option ButtonId

/-- MASK (00_scope.md R9): the one cell the spec gives, and open values elsewhere, none of which is 0 (WF2).
Every table that meets WF1 and WF2 is of this form. Log entry 8. -/
def mask : Mask := fun c k =>
  if c = 0 ∧ k = 0 then some 0
  else if openCell c k = some 0 then none
  else openCell c k

/-- How far MAX_FRAME lies above its lower bound. Nothing constrains it. -/
opaque maxFrameExtra : Nat

/-- MAX_FRAME, any integer at least 135 (10_state.md R32). Log entry 9. -/
def maxFrame : Nat := maxFrameExtra + 135

/-- The value that entry `i` of map_note holds after the reset that makes draw number `n` (70_reset_and_hazards.md
R230: "any value (a draw)"). A free value: log entry 7. -/
opaque freeNote : Nat → Nat → Byte

end Sys2Proof.Config
end

