-- ==== Sys2Proof/Machine/State.lean ====
section
/-! DEFINITION. The state of the block (spec/10_state.md R20 to R34), the responses it gives (spec/30_encoding.md R76),
and the state after reset (spec/70_reset_and_hazards.md R230, R231). -/

namespace Sys2Proof.Machine

/-- rx_mode: IDLE (0) or ACC (1) (10_state.md R23). -/
inductive RxMode where
  | idle
  | acc
deriving DecidableEq, Repr

/-- The block state S0 to S4 of 10_state.md R28. -/
structure Block where
  /-- S0 (R23). -/
  rxMode : RxMode
  /-- S1, with rx_len as its length (R22). -/
  rxBuf : List Byte
  /-- S2 (R24). -/
  rxOvf : Bool
  /-- S3 (R26). -/
  mapValid : Bool
  /-- S4: entry i is the NoteNumber of ButtonId i (R25). -/
  mapNote : Vector Byte 64
deriving DecidableEq, Repr

/-- FRAME(op, payload, mst) of 30_encoding.md R76. -/
structure FrameEvent where
  op : Byte
  payload : List Byte
  mst : BitVec 2
deriving DecidableEq, Repr

/-- The response of one command (30_encoding.md R76); `none` is the spec's NONE. -/
structure Response where
  status : BitVec 3
  info : BitVec 3
  rxEvt : Option FrameEvent
  txFrame : Option (List Byte)
  lk : Option (BitVec 6)
deriving DecidableEq, Repr

/-- Reasons to stop with a fault: there is none. The block reports every error in a response and never stops
(60_exceptions.md R208, 93_implementation_defined.md Part 1), so this type has no constructor. Log entry 14. -/
inductive Fault where
deriving DecidableEq, Repr

/-- Reasons to refuse an instruction. -/
inductive Refusal where
  /-- An instruction without a meaning, raised by `exec`'s arm for it and safe. No arm raises it: every row of
  spec/opcode_table.json has its meaning (log entry 14). -/
  | notModelled (mnemonic : String)
deriving DecidableEq, Repr

/-- The machine: the block, and beside it the host's side of its command interface. -/
structure State where
  /-- The block state. -/
  block : Block
  /-- How many times map_note has been drawn: it numbers the free values (log entry 7). -/
  draws : Nat
  /-- What the host has issued and the block has not yet performed, oldest first (20_memory.md R50; log entry 1). -/
  inbox : List Request
  /-- The responses given, oldest first (30_encoding.md R76; log entry 2). -/
  outbox : List Response
deriving DecidableEq, Repr

/-- The machine at power-on (70_reset_and_hazards.md R231). DESIGN CHOICE: the spec says that map_note then holds any
value, and the model names 0 (log entry 6). -/
def State.reset : State :=
  { block :=
      { rxMode := .idle, rxBuf := [], rxOvf := false, mapValid := false
        mapNote := Vector.replicate 64 0 }
    draws := 0, inbox := [], outbox := [] }

end Sys2Proof.Machine
end

