-- ==== Sys2Proof/Machine/Flags.lean ====
section
/-! DEFINITION. The codes a response reports: status and info (spec/60_exceptions.md R200 to R205) and the map status
of a FRAME event (spec/30_encoding.md R76). The block has no condition codes (spec/10_state.md R27); its one-bit flags
are written by the operations of Machine/Rx.lean and Machine/Control.lean. -/

namespace Sys2Proof.Machine

/-- The reasons of InvalidFrame (60_exceptions.md R200, R201). -/
inductive Reason where
  | noStart
  | overflow
  | short
  | header
  | device
  | badStart
  | badEnd
deriving DecidableEq, Repr

/-- The errors a command can raise, with their info (60_exceptions.md R200). -/
inductive Error where
  /-- InvalidFrame(reason). -/
  | invalidFrame (reason : Reason)
  /-- InvalidMapPayload(0). -/
  | invalidMapPayload
  /-- UnresolvedButton(1): no map yet. -/
  | noMap
  /-- UnresolvedButton(2): the note is not in the map. -/
  | noteAbsent
  /-- IllegalCommand(0). -/
  | illegalCommand
deriving DecidableEq, Repr

/-- The info code of an InvalidFrame reason (60_exceptions.md R200). -/
def reasonCode : Reason → BitVec 3
  | .noStart => 1
  | .overflow => 2
  | .short => 3
  | .header => 4
  | .device => 5
  | .badStart => 6
  | .badEnd => 7

/-- The status code of an error (60_exceptions.md R200). -/
def statusCode : Error → BitVec 3
  | .invalidFrame _ => 1
  | .invalidMapPayload => 2
  | .noMap => 3
  | .noteAbsent => 3
  | .illegalCommand => 4

/-- The info code of an error (60_exceptions.md R200). -/
def infoCode : Error → BitVec 3
  | .invalidFrame reason => reasonCode reason
  | .invalidMapPayload => 0
  | .noMap => 1
  | .noteAbsent => 2
  | .illegalCommand => 0

/-- mst = NOT_MAP (30_encoding.md R76). -/
def mstNotMap : BitVec 2 := 0

/-- mst = MAP_UPDATED (30_encoding.md R76). -/
def mstMapUpdated : BitVec 2 := 1

/-- mst = MAP_REJECTED (30_encoding.md R76). -/
def mstMapRejected : BitVec 2 := 2

end Sys2Proof.Machine
end

