-- ==== Sys2Proof/Syntax.lean ====
section
/-! DEFINITION. The instructions: one constructor for each row of spec/opcode_table.json, the eight commands of
spec/30_encoding.md R73 and the five wire frames of R60 to R66. -/

namespace Sys2Proof

/-- The instructions of the block, both levels of 00_scope.md R2. A command holds the operands its row of R73 reads;
a wire frame holds the bytes its row leaves open, and stands for the reception of the whole frame (log entries 4,
11 and 12). -/
inductive Instr where
  /-- OP 0 (42_control.md R180). -/
  | nop
  /-- OP 1, the byte fed (40_rx_decoder.md R100). -/
  | feed (b : Byte)
  /-- OP 2, the state vector (41_tx_encoder.md R150). -/
  | sync (states : Buttons)
  /-- OP 3 (41_tx_encoder.md R160). -/
  | emitFactoryReset
  /-- OP 4 (41_tx_encoder.md R161). -/
  | emitMapRequest
  /-- OP 5, the NoteNumber asked for (40_rx_decoder.md R110). -/
  | lookup (note : Byte)
  /-- OP 6 (42_control.md R181). -/
  | reset
  /-- OP 7 (42_control.md R182). -/
  | reserved
  /-- The sync frame (30_encoding.md R62): LL_0, HH_0, ..., LL_5, HH_5, each a 7-bit value. -/
  | syncFrame (cols : Vector (BitVec 7) 12)
  /-- The factory-reset frame (30_encoding.md R63). -/
  | factoryResetFrame
  /-- The button-map request frame (30_encoding.md R65). -/
  | mapRequestFrame
  /-- The button-map response frame (30_encoding.md R64), with its payload; a payload that is not 128 bytes long is
  rejected when it is received (40_rx_decoder.md R104). -/
  | mapResponseFrame (payload : List Byte)
  /-- Any other valid frame (40_rx_decoder.md R105). -/
  | otherValidFrame (op : Byte) (payload : List Byte)
deriving DecidableEq, Repr

end Sys2Proof
end

