-- ==== Sys2Proof/WellFormed.lean ====
section
/-! DEFINITION. Which instructions are well formed: the conditions of spec/30_encoding.md R60, R61 and the rows of
spec/opcode_table.json that the constructors' types do not already give. -/

namespace Sys2Proof

open Config

/-- The operation and the payload bytes of a frame are none of them a marker (30_encoding.md R60). -/
def plainByte (b : Byte) : Bool := b != sox && b != eox

/-- An operation and a payload that fit in a frame of at most MAX_FRAME bytes (30_encoding.md R60, R61). -/
def wellFramed (op : Byte) (payload : List Byte) : Bool :=
  plainByte op && payload.all plainByte && decide (payload.length + 7 ≤ maxFrame)

/-- The operation and payload of a frame that has a row of its own in spec/opcode_table.json (log entry 11). -/
def hasOwnRow (op : Byte) (payload : List Byte) : Bool :=
  op == opMap
    || (op == opSync && payload.length == 12 && payload.all (fun b => decide (b.toNat < 128)))
    || (op == opFactoryReset && payload.isEmpty)
    || (op == opRequest && payload == [opMap])

/-- The check every decoded instruction passes. The commands' operands are bounded by their types. -/
def WellFormed : Instr → Bool
  | .nop => true
  | .feed _ => true
  | .sync _ => true
  | .emitFactoryReset => true
  | .emitMapRequest => true
  | .lookup _ => true
  | .reset => true
  | .reserved => true
  | .syncFrame _ => true
  | .factoryResetFrame => true
  | .mapRequestFrame => true
  | .mapResponseFrame payload => wellFramed opMap payload
  | .otherValidFrame op payload => wellFramed op payload && !hasOwnRow op payload

end Sys2Proof
end

