-- ==== Sys2Proof/Decode.lean ====
section
/-! DEFINITION. Decoding: the command word (spec/30_encoding.md R71 to R75), the wire frame (R60 to R67) and the
fetch of the next instruction from the host's stream; then the encoder, written from the same rules. -/

namespace Sys2Proof

open Config

/-! ### Fields and layouts -/

/-- OP, CMDW[2:0] (30_encoding.md R71). -/
def cmdOp (w : CmdWord) : BitVec 3 := w.extractLsb' 0 3

/-- B, CMDW[10:3] (30_encoding.md R71). -/
def cmdB (w : CmdWord) : Byte := w.extractLsb' 3 8

/-- S, CMDW[74:11] (30_encoding.md R71). -/
def cmdS (w : CmdWord) : Buttons := w.extractLsb' 11 64

/-- CMDW = S @ B @ OP: S from bit 11 up, B in bits 10:3, OP in bits 2:0 (30_encoding.md R71). -/
def packCmd (s : Buttons) (b : Byte) (op : BitVec 3) : CmdWord :=
  s.zeroExtend 75 <<< 11 ||| b.zeroExtend 75 <<< 3 ||| op.zeroExtend 75

/-- The frame with a given operation and payload (30_encoding.md R60). -/
def frameBytes (op : Byte) (payload : List Byte) : List Byte :=
  [sox, hdr1, hdr2, hdr3, devId, op] ++ payload ++ [eox]

/-- The payload of a whole frame, bytes 6 .. n-2 (30_encoding.md R60). -/
def framePayload (f : List Byte) : List Byte := (f.drop 6).take (f.length - 7)

/-! ### Decoding -/

/-- The instruction of a command word (30_encoding.md R73). Every OP value has a meaning, and a field that the
command does not read is ignored (R74). -/
def decodeCommand (w : CmdWord) : Instr :=
  match (cmdOp w).toNat with
  | 0 => .nop
  | 1 => .feed (cmdB w)
  | 2 => .sync (cmdS w)
  | 3 => .emitFactoryReset
  | 4 => .emitMapRequest
  | 5 => .lookup (cmdB w)
  | 6 => .reset
  | _ => .reserved

/-- Why a byte sequence is no frame of the dialect (30_encoding.md R60, R61). -/
inductive FrameError where
  /-- Fewer than 7 bytes. -/
  | short
  /-- Byte 0 is not 240. -/
  | start
  /-- Bytes 1..3 are not (0, 1, 97). -/
  | header
  /-- Byte 4 is not 2. -/
  | device
  /-- The last byte is not 247. -/
  | noEndMarker
  /-- A 240 or a 247 stands at the operation or in the payload. -/
  | markerInside
  /-- More than MAX_FRAME bytes. -/
  | tooLong
deriving DecidableEq, Repr

/-- The row of spec/opcode_table.json that a valid frame belongs to; the rows above OTHER_VALID_FRAME take precedence
(log entry 11). -/
def frameRow (op : Byte) (payload : List Byte) : Instr :=
  if op = opMap then .mapResponseFrame payload
  else if op = opSync ∧ payload.length = 12 ∧ payload.all (fun b => decide (b.toNat < 128)) then
    .syncFrame (Vector.ofFn fun i => (payload.getD i.val 0).truncate 7)
  else if op = opFactoryReset ∧ payload = [] then .factoryResetFrame
  else if op = opRequest ∧ payload = [opMap] then .mapRequestFrame
  else .otherValidFrame op payload

/-- The wire frame that a whole byte sequence is (30_encoding.md R60, R61), or why it is none. -/
def decodeFrame (f : List Byte) : Except FrameError Instr :=
  if f.length < 7 then .error .short
  else if f[0]? ≠ some sox then .error .start
  else if f[1]? ≠ some hdr1 ∨ f[2]? ≠ some hdr2 ∨ f[3]? ≠ some hdr3 then .error .header
  else if f[4]? ≠ some devId then .error .device
  else if f[f.length - 1]? ≠ some eox then .error .noEndMarker
  else if !(plainByte (f.getD 5 0) && (framePayload f).all plainByte) then .error .markerInside
  else if maxFrame < f.length then .error .tooLong
  else .ok (frameRow (f.getD 5 0) (framePayload f))

/-- The instruction of one whole request: total, and rejecting by name. -/
def decode : Request → Except FrameError Instr
  | .command w => .ok (decodeCommand w)
  | .wire bytes => decodeFrame bytes

/-- The next instruction of the host's stream and the stream that is left (20_memory.md R50). Wire bytes that are not
one whole frame of the dialect are fed one at a time, so that every stream runs (log entries 4 and 5). `none`: the
host has issued nothing. -/
def fetch : List Request → Option (Instr × List Request)
  | [] => none
  | .command w :: rest => some (decodeCommand w, rest)
  | .wire bytes :: rest =>
    match decodeFrame bytes with
    | .ok i => some (i, rest)
    | .error _ =>
      match bytes with
      | [] => fetch rest
      | [b] => some (.feed b, rest)
      | b :: more => some (.feed b, .wire more :: rest)

/-! ### Encoding -/

/-- The request that stands for an instruction. A command's unread fields are 0 (any value would do, R74). -/
def encode : Instr → Request
  | .nop => .command (packCmd 0 0 0)
  | .feed b => .command (packCmd 0 b 1)
  | .sync states => .command (packCmd states 0 2)
  | .emitFactoryReset => .command (packCmd 0 0 3)
  | .emitMapRequest => .command (packCmd 0 0 4)
  | .lookup note => .command (packCmd 0 note 5)
  | .reset => .command (packCmd 0 0 6)
  | .reserved => .command (packCmd 0 0 7)
  | .syncFrame cols => .wire (frameBytes opSync (cols.toList.map (·.zeroExtend 8)))
  | .factoryResetFrame => .wire (frameBytes opFactoryReset [])
  | .mapRequestFrame => .wire (frameBytes opRequest [opMap])
  | .mapResponseFrame payload => .wire (frameBytes opMap payload)
  | .otherValidFrame op payload => .wire (frameBytes op payload)

/-! ### The opcode table's numbering -/

/-- The `n` bytes of a number, the most significant first: a SYSEX row of spec/opcode_table.json reads its bytes
"as a 48-bit big-endian value". -/
def bigEndianBytes : Nat → Nat → List Byte
  | 0, _ => []
  | n + 1, w => BitVec.ofNat 8 (w >>> (8 * n)) :: bigEndianBytes n w

/-- The rest of the frame whose operation byte is `op`, beyond the six bytes that spec/opcode_table.json numbers: its
operand bytes 0, and the bytes the row fixes (the end marker, and the payload byte 11 of MAP_REQUEST_FRAME). Log
entry 10. -/
def tableFrameRest (op : Byte) : List Byte :=
  if op = opSync then List.replicate 12 0 ++ [eox]
  else if op = opRequest then [opMap, eox]
  else if op = opMap then List.replicate 128 0 ++ [eox]
  else [eox]

/-- The request that a word of spec/opcode_table.json stands for: a 48-bit word is a SYSEX row's bytes 0..5, any other
a command word, whose bits above `nbits` are 0 (log entry 10). -/
def tableRequest (nbits w : Nat) : Request :=
  if nbits = 48 then
    .wire (bigEndianBytes 6 w ++ tableFrameRest (BitVec.ofNat 8 w))
  else .command (BitVec.ofNat 75 w)

/-- The instruction that the decoder reads from a word of spec/opcode_table.json. -/
def decodeTableWord (nbits w : Nat) : Option Instr :=
  match decode (tableRequest nbits w) with
  | .ok i => some i
  | .error _ => none

end Sys2Proof
end

