-- ==== Sys2Proof/Machine/Operands.lean ====
section
/-! DEFINITION. How operands are read: the notes of a button-map payload (spec/20_memory.md R45), the state of the
button in a slot of MASK (spec/41_tx_encoder.md R151), and the fields of a received frame (spec/30_encoding.md R60).
The command word's own fields are read in Decode.lean (R71, R72). -/

namespace Sys2Proof.Machine

open Config

/-- The NoteNumber of ButtonId `i` in a button-map payload: payload index 2i (20_memory.md R45). -/
def payloadNote (p : List Byte) (i : Nat) : Byte := p.getD (2 * i) 0

/-- off(c,k): whether the slot holds a ButtonId whose state is OFF (41_tx_encoder.md R151). -/
def slotOff (m : Mask) (states : Buttons) (c k : Nat) : Bool :=
  match m c k with
  | none => false
  | some id => !states.getLsbD id.val

/-- The operation byte of a whole frame, index 5 (30_encoding.md R60). -/
def frameOp (f : List Byte) : Byte := f.getD 5 0

end Sys2Proof.Machine
end

