-- ==== Sys2Proof/Machine/Ops.lean ====
section
/-! DEFINITION. The shared operations: the pseudocode primitives of spec/00_scope.md R13, raising an error among them,
and the completion of a command. -/

namespace Sys2Proof.Machine

open Config

/-! ### The response (00_scope.md R13) -/

/-- The default response (30_encoding.md R77). -/
def Response.ok : Response :=
  { status := 0, info := 0, rxEvt := none, txFrame := none, lk := none }

/-- `raise e`: the error's status and info, over what the command has set in its response so far. This is all there is
to an error: no state is saved, no mode changes and control goes nowhere (60_exceptions.md R208, R209). -/
def Response.raise (r : Response) (e : Error) : Response :=
  { r with status := statusCode e, info := infoCode e }

/-- `emit_rx(FRAME(op, payload, mst))`. -/
def Response.emitRx (r : Response) (op : Byte) (payload : List Byte) (mst : BitVec 2) : Response :=
  { r with rxEvt := some { op := op, payload := payload, mst := mst } }

/-- `emit_tx(f)`. -/
def Response.emitTx (r : Response) (f : List Byte) : Response := { r with txFrame := some f }

/-- `return_id(i)`. -/
def Response.returnId (r : Response) (i : ButtonId) : Response :=
  { r with lk := some (BitVec.ofNat 6 i.val) }

/-! ### The map store -/

/-- `MemRead(MAP, i, 1)` (00_scope.md R13). -/
def Block.noteAt (k : Block) (i : ButtonId) : Byte := k.mapNote[i.val]

/-- The 64 writes `MemWrite(MAP, i, 1, p[2i])` and `map_valid <- 1`, in one step (40_rx_decoder.md R104). -/
def Block.writeMap (k : Block) (p : List Byte) : Block :=
  { k with mapValid := true, mapNote := Vector.ofFn fun i => payloadNote p i.val }

/-! ### The RX registers -/

/-- `rx_mode <- ACC; rx_buf <- [240]; rx_ovf <- 0` (40_rx_decoder.md R100). -/
def Block.openFrame (k : Block) : Block :=
  { k with rxMode := .acc, rxBuf := [sox], rxOvf := false }

/-- `rx_mode <- IDLE; rx_buf <- []; rx_ovf <- 0` (40_rx_decoder.md R101). -/
def Block.closeFrame (k : Block) : Block :=
  { k with rxMode := .idle, rxBuf := [], rxOvf := false }

/-- An ordinary byte of an open frame: appended, or dropped with rx_ovf set where the buffer is full
(40_rx_decoder.md R100). -/
def Block.takeByte (bound : Nat) (b : Byte) (k : Block) : Block :=
  if k.rxBuf.length < bound - 1 then { k with rxBuf := k.rxBuf ++ [b] }
  else { k with rxOvf := true }

/-! ### Reset -/

/-- The block state that ResetState leaves (70_reset_and_hazards.md R230), for the values that map_note then holds. -/
def Block.initial (notes : Vector Byte 64) : Block :=
  { rxMode := .idle, rxBuf := [], rxOvf := false, mapValid := false, mapNote := notes }

/-- The values map_note holds after the reset that makes draw number `n` (70_reset_and_hazards.md R230). Free values:
log entry 7. -/
@[irreducible] def drawnNotes (n : Nat) : Vector Byte 64 := Vector.ofFn fun i => freeNote n i.val

/-! ### Completing a command -/

/-- The command's writes take effect and its responses are given (20_memory.md R50, 30_encoding.md R70). -/
def State.answer (s : State) (k : Block) (rs : List Response) :
    Host.Outcome State Fault Refusal :=
  .next { s with block := k, outbox := s.outbox ++ rs }

end Sys2Proof.Machine
end

