-- ==== Sys2Proof/Machine/Control.lean ====
section
/-! DEFINITION. The control commands (spec/42_control.md): NOP, RESET and the reserved OP 7. -/

namespace Sys2Proof.Machine

/-- NOP (42_control.md R180). -/
def execNop (s : State) : Host.Outcome State Fault Refusal :=
  s.answer s.block [Response.ok]

/-- RESET (42_control.md R181): ResetState of 70_reset_and_hazards.md R230. The entries of map_note then hold any
value: a fresh draw of free values (log entry 7). -/
def execReset (s : State) : Host.Outcome State Fault Refusal :=
  State.answer { s with draws := s.draws + 1 } (Block.initial (drawnNotes s.draws)) [Response.ok]

/-- The reserved command, OP = 7 (42_control.md R182). -/
def execReserved (s : State) : Host.Outcome State Fault Refusal :=
  s.answer s.block [Response.ok.raise .illegalCommand]

end Sys2Proof.Machine
end

