-- ==== Sys2Proof/Machine/Rx.lean ====
section
/-! DEFINITION. The RX unit (spec/40_rx_decoder.md): FEED with the functions it calls, and LOOKUP. The functions take
MAX_FRAME as an argument (spec/10_state.md R30); the meanings pass the configuration's. -/

namespace Sys2Proof.Machine

open Config

/-- What ParseFrame returns (40_rx_decoder.md R102). -/
inductive Parsed where
  | invalid (reason : Reason)
  | valid (op : Byte) (payload : List Byte)
deriving DecidableEq, Repr

/-- ParseFrame(f, o): the checks in the order of 40_rx_decoder.md R102. -/
def parseFrame (f : List Byte) (o : Bool) : Parsed :=
  if o then .invalid .overflow
  else if f.length < 7 then .invalid .short
  else if f[0]? ≠ some sox then .invalid .badStart
  else if f[1]? ≠ some hdr1 ∨ f[2]? ≠ some hdr2 ∨ f[3]? ≠ some hdr3 then .invalid .header
  else if f[4]? ≠ some devId then .invalid .device
  else if f[f.length - 1]? ≠ some eox then .invalid .badEnd
  else .valid (frameOp f) (framePayload f)

/-- MapExtract(p) (40_rx_decoder.md R104). -/
def mapExtract (p : List Byte) (k : Block) : Block × Response :=
  if p.length ≠ mapPayloadLen then
    (k, (Response.ok.emitRx opMap p mstMapRejected).raise .invalidMapPayload)
  else (k.writeMap p, Response.ok.emitRx opMap p mstMapUpdated)

/-- Deliver(VALID(op, p)) (40_rx_decoder.md R103). -/
def deliver (op : Byte) (p : List Byte) (k : Block) : Block × Response :=
  if op = opMap then mapExtract p k
  else (k, Response.ok.emitRx op p mstNotMap)

/-- EndFrame() (40_rx_decoder.md R101): the RX registers return to IDLE whatever ParseFrame returns. -/
def endFrame (k : Block) : Block × Response :=
  match parseFrame (k.rxBuf ++ [eox]) k.rxOvf with
  | .invalid reason => (k.closeFrame, Response.ok.raise (.invalidFrame reason))
  | .valid op p => deliver op p k.closeFrame

/-- FEED(b) (40_rx_decoder.md R100). -/
def feedByte (bound : Nat) (b : Byte) (k : Block) : Block × Response :=
  if b = sox then (k.openFrame, Response.ok)
  else
    match k.rxMode with
    | .idle =>
      if b = eox then (k, Response.ok.raise (.invalidFrame .noStart)) else (k, Response.ok)
    | .acc => if b = eox then endFrame k else (k.takeByte bound b, Response.ok)

/-- FEEDS (30_encoding.md R79): the bytes fed in order, with the response of each. -/
def feedBytes (bound : Nat) : List Byte → Block → Block × List Response
  | [], k => (k, [])
  | b :: more, k =>
    let first := feedByte bound b k
    let others := feedBytes bound more first.1
    (others.1, first.2 :: others.2)

/-- The greatest ButtonId whose entry holds `n`, if any does (40_rx_decoder.md R110: `max(ids)`). -/
def greatestId (k : Block) (n : Byte) : Option ButtonId :=
  ((List.finRange 64).filter fun i => k.noteAt i == n).getLast?

/-- LOOKUP(n) (40_rx_decoder.md R110). -/
def lookupNote (n : Byte) (k : Block) : Response :=
  if k.mapValid then
    match greatestId k n with
    | none => Response.ok.raise .noteAbsent
    | some i => Response.ok.returnId i
  else Response.ok.raise .noMap

/-- FEED (40_rx_decoder.md R100). -/
def execFeed (b : Byte) (s : State) : Host.Outcome State Fault Refusal :=
  s.answer (feedByte maxFrame b s.block).1 [(feedByte maxFrame b s.block).2]

/-- LOOKUP (40_rx_decoder.md R110): no state is written. -/
def execLookup (n : Byte) (s : State) : Host.Outcome State Fault Refusal :=
  s.answer s.block [lookupNote n s.block]

end Sys2Proof.Machine
end

