-- ==== Sys2Proof/Machine/Frames.lean ====
section
/-! DEFINITION. The wire frames as instructions of the dialect (spec/00_scope.md R2): the block receives the whole frame,
which is the FEED of each of its bytes in order (spec/30_encoding.md R79; log entries 4 and 12). What then happens is
what spec/40_rx_decoder.md R100 to R105 say of those FEEDs. -/

namespace Sys2Proof.Machine

open Config

/-- The reception of a frame: the FEEDs of its bytes, with the response of each (30_encoding.md R79). -/
def State.receive (s : State) (frame : List Byte) : Host.Outcome State Fault Refusal :=
  s.answer (feedBytes maxFrame frame s.block).1 (feedBytes maxFrame frame s.block).2

/-- SYNC_FRAME received: an ordinary valid frame (40_rx_decoder.md R105). -/
def execSyncFrame (cols : Vector (BitVec 7) 12) (s : State) : Host.Outcome State Fault Refusal :=
  s.receive (frameBytes opSync (cols.toList.map (·.zeroExtend 8)))

/-- FACTORY_RESET_FRAME received: an ordinary valid frame (40_rx_decoder.md R105). -/
def execFactoryResetFrame (s : State) : Host.Outcome State Fault Refusal :=
  s.receive (frameBytes opFactoryReset [])

/-- MAP_REQUEST_FRAME received: an ordinary valid frame (40_rx_decoder.md R105). -/
def execMapRequestFrame (s : State) : Host.Outcome State Fault Refusal :=
  s.receive (frameBytes opRequest [opMap])

/-- MAP_RESPONSE_FRAME received: the frame the decoder consumes (40_rx_decoder.md R104). -/
def execMapResponseFrame (payload : List Byte) (s : State) : Host.Outcome State Fault Refusal :=
  s.receive (frameBytes opMap payload)

/-- OTHER_VALID_FRAME received (40_rx_decoder.md R105). -/
def execOtherValidFrame (op : Byte) (payload : List Byte) (s : State) :
    Host.Outcome State Fault Refusal :=
  s.receive (frameBytes op payload)

end Sys2Proof.Machine
end

