-- ==== Sys2Proof/Machine/Tx.lean ====
section
/-! DEFINITION. The TX unit (spec/41_tx_encoder.md): SYNC and the two fixed frames. The packing functions take MASK as an
argument (spec/10_state.md R30); the meaning passes the configuration's. -/

namespace Sys2Proof.Machine

open Config

/-- lo, hi and the exponent e of the iteration of 41_tx_encoder.md R150: unbounded integers (00_scope.md R10). -/
structure ColumnSums where
  lo : Nat
  hi : Nat
  e : Nat
deriving DecidableEq, Repr

/-- One mask entry of column `c`: the body of R150's inner loop. -/
def packSlot (m : Mask) (states : Buttons) (c : Nat) (a : ColumnSums) (k : Nat) : ColumnSums :=
  let off := (slotOff m states c k).toNat
  { lo := if k ≤ 6 then a.lo + off * 2 ^ a.e else a.lo
    hi := if k ≤ 6 then a.hi else a.hi + off * 2 ^ a.e
    e := if k = 6 then 0 else a.e + 1 }

/-- The 14 entries of column `c` in order (R150). -/
def packColumn (m : Mask) (states : Buttons) (c : Nat) : ColumnSums :=
  (List.range nSlots).foldl (packSlot m states c) { lo := 0, hi := 0, e := 0 }

/-- The 12 payload bytes: (low, high) of each column in order (R150; 20_memory.md R44). -/
def syncPayload (m : Mask) (states : Buttons) : List Byte :=
  (List.range nCols).flatMap fun c =>
    [BitVec.ofNat 8 (packColumn m states c).lo, BitVec.ofNat 8 (packColumn m states c).hi]

/-- The sync frame (R150). -/
def syncFrameOf (m : Mask) (states : Buttons) : List Byte :=
  frameBytes opSync (syncPayload m states)

/-- SYNC (41_tx_encoder.md R150). -/
def execSync (states : Buttons) (s : State) : Host.Outcome State Fault Refusal :=
  s.answer s.block [Response.ok.emitTx (syncFrameOf mask states)]

/-- EMIT_FACTORY_RESET (41_tx_encoder.md R160). -/
def execEmitFactoryReset (s : State) : Host.Outcome State Fault Refusal :=
  s.answer s.block [Response.ok.emitTx (frameBytes opFactoryReset [])]

/-- EMIT_MAP_REQUEST (41_tx_encoder.md R161). -/
def execEmitMapRequest (s : State) : Host.Outcome State Fault Refusal :=
  s.answer s.block [Response.ok.emitTx (frameBytes opRequest [opMap])]

end Sys2Proof.Machine
end

