-- ==== Sys2Proof/Machine/Dispatch.lean ====
section
/-! DEFINITION. Which meaning each instruction has: one arm per constructor of Instr. -/

namespace Sys2Proof.Machine

def exec (i : Instr) (s : State) : Host.Outcome State Fault Refusal :=
  match i with
  -- the commands (spec/30_encoding.md R73)
  | .nop => Sys2Proof.Machine.execNop s
  | .feed b => Sys2Proof.Machine.execFeed b s
  | .sync states => Sys2Proof.Machine.execSync states s
  | .emitFactoryReset => Sys2Proof.Machine.execEmitFactoryReset s
  | .emitMapRequest => Sys2Proof.Machine.execEmitMapRequest s
  | .lookup note => Sys2Proof.Machine.execLookup note s
  | .reset => Sys2Proof.Machine.execReset s
  | .reserved => Sys2Proof.Machine.execReserved s
  -- the wire frames (spec/30_encoding.md R60 to R66)
  | .syncFrame cols => Sys2Proof.Machine.execSyncFrame cols s
  | .factoryResetFrame => Sys2Proof.Machine.execFactoryResetFrame s
  | .mapRequestFrame => Sys2Proof.Machine.execMapRequestFrame s
  | .mapResponseFrame payload => Sys2Proof.Machine.execMapResponseFrame payload s
  | .otherValidFrame op payload => Sys2Proof.Machine.execOtherValidFrame op payload s

end Sys2Proof.Machine
end

