-- ==== Sys2Proof/Machine/Step.lean ====
section
/-! DEFINITION. One step: the next instruction of the host's stream is performed to completion (spec/20_memory.md R50,
spec/30_encoding.md R70). -/

namespace Sys2Proof.Machine

/-- One step. Where the host has issued nothing the block waits for its next command, and nothing changes
(70_reset_and_hazards.md R231; log entry 3). -/
def step (s : State) : Host.Outcome State Fault Refusal :=
  match fetch s.inbox with
  | none => .next s
  | some (i, rest) => exec i { s with inbox := rest }

/-- The state in which the host has issued the instruction of a word of spec/opcode_table.json, before all that it had
issued (log entries 1 and 10). -/
def State.withFetchWord (s : State) (nbits w : Nat) : State :=
  { s with inbox := tableRequest nbits w :: s.inbox }

end Sys2Proof.Machine
end

