-- ==== Sys2Proof/Laws/State.lean ====
section
/-! SUPPORT. The fields of the block, the response and the state after each update. -/

namespace Sys2Proof.Machine

open Config

section block

variable (k : Block) (b : Byte) (bound : Nat) (p : List Byte) (v : Vector Byte 64)

@[simp] theorem Block.initial_rxMode : (Block.initial v).rxMode = .idle := rfl
@[simp] theorem Block.initial_rxBuf : (Block.initial v).rxBuf = [] := rfl
@[simp] theorem Block.initial_rxOvf : (Block.initial v).rxOvf = false := rfl
@[simp] theorem Block.initial_mapValid : (Block.initial v).mapValid = false := rfl
@[simp] theorem Block.initial_mapNote : (Block.initial v).mapNote = v := rfl

@[simp] theorem Block.openFrame_rxMode : k.openFrame.rxMode = .acc := rfl
@[simp] theorem Block.openFrame_rxBuf : k.openFrame.rxBuf = [sox] := rfl
@[simp] theorem Block.openFrame_rxOvf : k.openFrame.rxOvf = false := rfl
@[simp] theorem Block.openFrame_mapValid : k.openFrame.mapValid = k.mapValid := rfl
@[simp] theorem Block.openFrame_mapNote : k.openFrame.mapNote = k.mapNote := rfl

@[simp] theorem Block.closeFrame_rxMode : k.closeFrame.rxMode = .idle := rfl
@[simp] theorem Block.closeFrame_rxBuf : k.closeFrame.rxBuf = [] := rfl
@[simp] theorem Block.closeFrame_rxOvf : k.closeFrame.rxOvf = false := rfl
@[simp] theorem Block.closeFrame_mapValid : k.closeFrame.mapValid = k.mapValid := rfl
@[simp] theorem Block.closeFrame_mapNote : k.closeFrame.mapNote = k.mapNote := rfl
@[simp] theorem Block.closeFrame_openFrame : k.openFrame.closeFrame = k.closeFrame := rfl

@[simp] theorem Block.writeMap_rxMode : (k.writeMap p).rxMode = k.rxMode := rfl
@[simp] theorem Block.writeMap_rxBuf : (k.writeMap p).rxBuf = k.rxBuf := rfl
@[simp] theorem Block.writeMap_rxOvf : (k.writeMap p).rxOvf = k.rxOvf := rfl
@[simp] theorem Block.writeMap_mapValid : (k.writeMap p).mapValid = true := rfl
@[simp] theorem Block.writeMap_mapNote :
    (k.writeMap p).mapNote = Vector.ofFn fun i => payloadNote p i.val := rfl
@[simp] theorem Block.writeMap_noteAt (i : ButtonId) :
    (k.writeMap p).noteAt i = payloadNote p i.val := by
  simp [Block.noteAt]

@[simp] theorem Block.takeByte_rxMode : (k.takeByte bound b).rxMode = k.rxMode := by
  unfold Block.takeByte; split <;> rfl
@[simp] theorem Block.takeByte_mapValid : (k.takeByte bound b).mapValid = k.mapValid := by
  unfold Block.takeByte; split <;> rfl
@[simp] theorem Block.takeByte_mapNote : (k.takeByte bound b).mapNote = k.mapNote := by
  unfold Block.takeByte; split <;> rfl

/-- A byte is appended where the buffer has room (40_rx_decoder.md R100). -/
theorem Block.takeByte_of_lt (h : k.rxBuf.length < bound - 1) :
    k.takeByte bound b = { k with rxBuf := k.rxBuf ++ [b] } := if_pos h

/-- A byte is dropped, and rx_ovf set, where the buffer is full (40_rx_decoder.md R100). -/
theorem Block.takeByte_of_le (h : bound - 1 ≤ k.rxBuf.length) :
    k.takeByte bound b = { k with rxOvf := true } := if_neg (by omega)

end block

section response

variable (r : Response) (e : Error) (op : Byte) (p : List Byte) (m : BitVec 2) (i : ButtonId)

@[simp] theorem Response.ok_status : Response.ok.status = 0 := rfl
@[simp] theorem Response.ok_info : Response.ok.info = 0 := rfl
@[simp] theorem Response.ok_rxEvt : Response.ok.rxEvt = none := rfl
@[simp] theorem Response.ok_txFrame : Response.ok.txFrame = none := rfl
@[simp] theorem Response.ok_lk : Response.ok.lk = none := rfl

@[simp] theorem Response.raise_status : (r.raise e).status = statusCode e := rfl
@[simp] theorem Response.raise_info : (r.raise e).info = infoCode e := rfl
@[simp] theorem Response.raise_rxEvt : (r.raise e).rxEvt = r.rxEvt := rfl
@[simp] theorem Response.raise_txFrame : (r.raise e).txFrame = r.txFrame := rfl
@[simp] theorem Response.raise_lk : (r.raise e).lk = r.lk := rfl

@[simp] theorem Response.emitRx_status : (r.emitRx op p m).status = r.status := rfl
@[simp] theorem Response.emitRx_info : (r.emitRx op p m).info = r.info := rfl
@[simp] theorem Response.emitRx_rxEvt :
    (r.emitRx op p m).rxEvt = some { op := op, payload := p, mst := m } := rfl
@[simp] theorem Response.emitRx_txFrame : (r.emitRx op p m).txFrame = r.txFrame := rfl
@[simp] theorem Response.emitRx_lk : (r.emitRx op p m).lk = r.lk := rfl

@[simp] theorem Response.emitTx_status : (r.emitTx p).status = r.status := rfl
@[simp] theorem Response.emitTx_info : (r.emitTx p).info = r.info := rfl
@[simp] theorem Response.emitTx_rxEvt : (r.emitTx p).rxEvt = r.rxEvt := rfl
@[simp] theorem Response.emitTx_txFrame : (r.emitTx p).txFrame = some p := rfl
@[simp] theorem Response.emitTx_lk : (r.emitTx p).lk = r.lk := rfl

@[simp] theorem Response.returnId_status : (r.returnId i).status = r.status := rfl
@[simp] theorem Response.returnId_info : (r.returnId i).info = r.info := rfl
@[simp] theorem Response.returnId_rxEvt : (r.returnId i).rxEvt = r.rxEvt := rfl
@[simp] theorem Response.returnId_txFrame : (r.returnId i).txFrame = r.txFrame := rfl
@[simp] theorem Response.returnId_lk :
    (r.returnId i).lk = some (BitVec.ofNat 6 i.val) := rfl

end response

end Sys2Proof.Machine
end

