-- ==== Sys2Proof/Laws/Ops.lean ====
section
/-! SUPPORT. What the shared operations can do, said once: the completion of a command, the map store, the draw of
free notes, and what `exec` is for each instruction. -/

namespace Sys2Proof.Machine

open Config

/-- Completing a command always answers a next state, and this one. -/
theorem State.answer_next_iff {s t : State} {k : Block} {rs : List Response} :
    s.answer k rs = .next t ↔ t = { s with block := k, outbox := s.outbox ++ rs } := by
  simp [State.answer, eq_comm]

/-- Receiving a frame completes with the FEEDs of its bytes. -/
theorem State.receive_next_iff {s t : State} {f : List Byte} :
    s.receive f = .next t ↔
      t = { s with
            block := (feedBytes maxFrame f s.block).1
            outbox := s.outbox ++ (feedBytes maxFrame f s.block).2 } :=
  State.answer_next_iff

/-- Entry `i` of the map store is read as it stands. -/
theorem Block.noteAt_eq (k : Block) (i : ButtonId) : k.noteAt i = k.mapNote[i.val] := rfl

/-- The notes after a reset are the free values of its draw. -/
@[simp] theorem drawnNotes_noteAt (n : Nat) (i : ButtonId) :
    (Block.initial (drawnNotes n)).noteAt i = freeNote n i.val := by
  simp [drawnNotes, Block.noteAt]

section exec

variable (s : State)

@[simp] theorem exec_nop : exec .nop s = s.answer s.block [Response.ok] := rfl
@[simp] theorem exec_feed (b : Byte) :
    exec (.feed b) s =
      s.answer (feedByte maxFrame b s.block).1 [(feedByte maxFrame b s.block).2] := rfl
@[simp] theorem exec_sync (states : Buttons) :
    exec (.sync states) s = s.answer s.block [Response.ok.emitTx (syncFrameOf mask states)] := rfl
@[simp] theorem exec_emitFactoryReset :
    exec .emitFactoryReset s =
      s.answer s.block [Response.ok.emitTx (frameBytes opFactoryReset [])] := rfl
@[simp] theorem exec_emitMapRequest :
    exec .emitMapRequest s =
      s.answer s.block [Response.ok.emitTx (frameBytes opRequest [opMap])] := rfl
@[simp] theorem exec_lookup (n : Byte) :
    exec (.lookup n) s = s.answer s.block [lookupNote n s.block] := rfl
@[simp] theorem exec_reset :
    exec .reset s =
      State.answer { s with draws := s.draws + 1 } (Block.initial (drawnNotes s.draws))
        [Response.ok] := rfl
@[simp] theorem exec_reserved :
    exec .reserved s = s.answer s.block [Response.ok.raise .illegalCommand] := rfl

/-- A wire frame is received: its bytes are fed (30_encoding.md R79). -/
theorem exec_frame {i : Instr} {bytes : List Byte} (h : encode i = .wire bytes) :
    exec i s = s.receive bytes := by
  cases i <;> simp only [encode, reduceCtorEq, Request.wire.injEq] at h <;> subst h <;> rfl

end exec

section step

variable {s : State} {rest : List Request}

/-- With nothing issued, a step changes nothing. -/
theorem step_of_empty (h : s.inbox = []) : step s = .next s := by
  simp [step, h, fetch]

/-- A step performs the instruction that the fetch finds. -/
theorem step_of_fetch {i : Instr} (h : fetch s.inbox = some (i, rest)) :
    step s = exec i { s with inbox := rest } := by
  simp [step, h]

/-- What a step can do: nothing, where the fetch finds nothing, or one instruction. -/
theorem step_cases {t : State} (h : step s = .next t) :
    (fetch s.inbox = none ∧ t = s) ∨
      ∃ i rest, fetch s.inbox = some (i, rest) ∧ exec i { s with inbox := rest } = .next t := by
  unfold step at h
  split at h
  · rename_i hf
    left
    cases h
    exact ⟨hf, rfl⟩
  · rename_i i rest hf
    exact .inr ⟨i, rest, hf, h⟩

end step

end Sys2Proof.Machine
end

