-- ==== Sys2Proof/Laws/Rx.lean ====
section
/-! SUPPORT. What the functions of the RX unit can do, said once each (spec/40_rx_decoder.md R100 to R110). -/

namespace Sys2Proof.Machine

open Config

variable {bound : Nat} {b n op : Byte} {p : List Byte} {k : Block}

/-- MapExtract rejects a payload that is not 128 bytes long (R104). -/
theorem mapExtract_of_ne (h : p.length ≠ mapPayloadLen) :
    mapExtract p k =
      (k, (Response.ok.emitRx opMap p mstMapRejected).raise .invalidMapPayload) := if_pos h

/-- MapExtract takes a payload of 128 bytes as the map (R104). -/
theorem mapExtract_of_eq (h : p.length = mapPayloadLen) :
    mapExtract p k = (k.writeMap p, Response.ok.emitRx opMap p mstMapUpdated) :=
  if_neg (by simp [h])

/-- Deliver returns a frame that is no button map, and changes nothing (R103). -/
theorem deliver_of_ne (h : op ≠ opMap) :
    deliver op p k = (k, Response.ok.emitRx op p mstNotMap) := if_neg h

/-- Deliver hands operation 11 to MapExtract (R103). -/
@[simp] theorem deliver_map : deliver opMap p k = mapExtract p k := if_pos rfl

/-- What EndFrame can do: an error, with the RX registers closed; a frame that is no map; a map rejected; a map
taken (R101, R103, R104). -/
theorem endFrame_cases (k : Block) :
    (∃ reason, parseFrame (k.rxBuf ++ [eox]) k.rxOvf = .invalid reason ∧
        endFrame k = (k.closeFrame, Response.ok.raise (.invalidFrame reason))) ∨
      ∃ op p, parseFrame (k.rxBuf ++ [eox]) k.rxOvf = .valid op p ∧
        ((op ≠ opMap ∧ endFrame k = (k.closeFrame, Response.ok.emitRx op p mstNotMap)) ∨
          (op = opMap ∧ p.length ≠ mapPayloadLen ∧
            endFrame k = (k.closeFrame,
              (Response.ok.emitRx opMap p mstMapRejected).raise .invalidMapPayload)) ∨
          (op = opMap ∧ p.length = mapPayloadLen ∧
            endFrame k = (k.closeFrame.writeMap p, Response.ok.emitRx opMap p mstMapUpdated))) := by
  unfold endFrame
  cases hp : parseFrame (k.rxBuf ++ [eox]) k.rxOvf with
  | invalid reason => exact .inl ⟨reason, rfl, rfl⟩
  | valid op p =>
    refine .inr ⟨op, p, rfl, ?_⟩
    by_cases ho : op = opMap
    · subst ho
      by_cases hl : p.length = mapPayloadLen
      · exact .inr (.inr ⟨rfl, hl, by simp only [deliver_map, mapExtract_of_eq hl]⟩)
      · exact .inr (.inl ⟨rfl, hl, by simp only [deliver_map, mapExtract_of_ne hl]⟩)
    · exact .inl ⟨ho, by simp only [deliver_of_ne ho]⟩

/-- The two markers differ (00_scope.md R8). -/
theorem eox_ne_sox : eox ≠ sox := by decide

/-- A start marker opens a frame in any state (R100). -/
@[simp] theorem feedByte_sox (bound : Nat) (k : Block) :
    feedByte bound sox k = (k.openFrame, Response.ok) := if_pos rfl

/-- An end marker with no frame open (R100). -/
theorem feedByte_eox_idle (h : k.rxMode = .idle) :
    feedByte bound eox k = (k, Response.ok.raise (.invalidFrame .noStart)) := by
  simp [feedByte, h, eox_ne_sox]

/-- An end marker closes the open frame (R100). -/
theorem feedByte_eox_acc (h : k.rxMode = .acc) : feedByte bound eox k = endFrame k := by
  simp [feedByte, h, eox_ne_sox]

/-- An ordinary byte with no frame open is dropped (R100). -/
theorem feedByte_idle (h : k.rxMode = .idle) (hs : b ≠ sox) (he : b ≠ eox) :
    feedByte bound b k = (k, Response.ok) := by
  simp [feedByte, h, hs, he]

/-- An ordinary byte of an open frame (R100). -/
theorem feedByte_acc (h : k.rxMode = .acc) (hs : b ≠ sox) (he : b ≠ eox) :
    feedByte bound b k = (k.takeByte bound b, Response.ok) := by
  simp [feedByte, h, hs, he]

/-- What FEED can do (R100). -/
theorem feedByte_cases (bound : Nat) (b : Byte) (k : Block) :
    (b = sox ∧ feedByte bound b k = (k.openFrame, Response.ok)) ∨
      (b = eox ∧ k.rxMode = .idle ∧
        feedByte bound b k = (k, Response.ok.raise (.invalidFrame .noStart))) ∨
      (b = eox ∧ k.rxMode = .acc ∧ feedByte bound b k = endFrame k) ∨
      (b ≠ sox ∧ b ≠ eox ∧ k.rxMode = .idle ∧ feedByte bound b k = (k, Response.ok)) ∨
      (b ≠ sox ∧ b ≠ eox ∧ k.rxMode = .acc ∧
        feedByte bound b k = (k.takeByte bound b, Response.ok)) := by
  by_cases hs : b = sox
  · exact .inl ⟨hs, by rw [hs, feedByte_sox]⟩
  · by_cases he : b = eox <;> cases hm : k.rxMode
    · exact .inr (.inl ⟨he, rfl, by rw [he, feedByte_eox_idle hm]⟩)
    · exact .inr (.inr (.inl ⟨he, rfl, by rw [he, feedByte_eox_acc hm]⟩))
    · exact .inr (.inr (.inr (.inl ⟨hs, he, rfl, feedByte_idle hm hs he⟩)))
    · exact .inr (.inr (.inr (.inr ⟨hs, he, rfl, feedByte_acc hm hs he⟩)))

@[simp] theorem feedBytes_nil : feedBytes bound [] k = (k, []) := rfl

@[simp] theorem feedBytes_cons (b : Byte) (more : List Byte) (k : Block) :
    feedBytes bound (b :: more) k =
      ((feedBytes bound more (feedByte bound b k).1).1,
        (feedByte bound b k).2 :: (feedBytes bound more (feedByte bound b k).1).2) := rfl

/-- FEEDS of two runs of bytes, one after the other. -/
theorem feedBytes_append (xs ys : List Byte) (k : Block) :
    feedBytes bound (xs ++ ys) k =
      ((feedBytes bound ys (feedBytes bound xs k).1).1,
        (feedBytes bound xs k).2 ++ (feedBytes bound ys (feedBytes bound xs k).1).2) := by
  induction xs generalizing k with
  | nil => simp
  | cons b xs ih => simp [ih]

/-- Every byte fed has one response. -/
@[simp] theorem feedBytes_length (bytes : List Byte) (k : Block) :
    (feedBytes bound bytes k).2.length = bytes.length := by
  induction bytes generalizing k with
  | nil => rfl
  | cons b more ih => simp [ih]

/-- What LOOKUP can answer (R110). -/
theorem lookupNote_cases (n : Byte) (k : Block) :
    (k.mapValid = false ∧ lookupNote n k = Response.ok.raise .noMap) ∨
      (k.mapValid = true ∧ greatestId k n = none ∧
        lookupNote n k = Response.ok.raise .noteAbsent) ∨
      ∃ i, k.mapValid = true ∧ greatestId k n = some i ∧
        lookupNote n k = Response.ok.returnId i := by
  unfold lookupNote
  cases hv : k.mapValid
  · exact .inl ⟨rfl, by simp⟩
  · cases hg : greatestId k n with
    | none => exact .inr (.inl ⟨rfl, rfl, by simp⟩)
    | some i => exact .inr (.inr ⟨i, rfl, rfl, by simp⟩)

/-- No entry holds the note exactly where there is no greatest id. -/
theorem greatestId_eq_none_iff : greatestId k n = none ↔ ∀ i, k.noteAt i ≠ n := by
  simp [greatestId]

end Sys2Proof.Machine
end

