-- ==== Sys2Proof/Laws/Tx.lean ====
section
/-! SUPPORT. The shape of the frames the TX unit emits (spec/30_encoding.md R60, R62; spec/41_tx_encoder.md R150). -/

namespace Sys2Proof

/-- A frame is its operation and payload between seven fixed bytes (30_encoding.md R60). -/
@[simp] theorem frameBytes_length (op : Byte) (p : List Byte) :
    (frameBytes op p).length = p.length + 7 := by
  simp [frameBytes]

/-- The payload of a frame is read back from it. -/
@[simp] theorem framePayload_frameBytes (op : Byte) (p : List Byte) :
    framePayload (frameBytes op p) = p := by
  simp [framePayload, frameBytes]

namespace Machine

open Config

/-- A NULL slot is never off (41_tx_encoder.md R150). -/
theorem slotOff_of_none {m : Mask} {states : Buttons} {c k : Nat} (h : m c k = none) :
    slotOff m states c k = false := by
  simp [slotOff, h]

/-- A slot with a button is off exactly where that button's state is OFF (41_tx_encoder.md R151). -/
theorem slotOff_of_some {m : Mask} {states : Buttons} {c k : Nat} {id : ButtonId}
    (h : m c k = some id) : slotOff m states c k = !states.getLsbD id.val := by
  simp [slotOff, h]

/-- The sync payload has two bytes for each of the six columns (30_encoding.md R62). -/
@[simp] theorem syncPayload_length (m : Mask) (states : Buttons) :
    (syncPayload m states).length = 12 := rfl

/-- The sync frame has 19 bytes (30_encoding.md R62). -/
@[simp] theorem syncFrameOf_length (m : Mask) (states : Buttons) :
    (syncFrameOf m states).length = 19 := rfl

end Machine

end Sys2Proof
end

