-- ==== Sys2Proof/Machine/Assembler.lean ====
section
/-! DEFINITION. The assembler's notation (spec/30_encoding.md R78 to R80): the lines of a program, the expansions of the
pseudo-instructions, the command words they stand for, and a reader of program text. -/

namespace Sys2Proof.Machine

/-- One line of a program (30_encoding.md R78, R79). -/
inductive AsmLine where
  | nop
  | feed (b : Byte)
  | sync (states : Buttons)
  | emitFactoryReset
  | emitMapRequest
  | lookup (note : Byte)
  | reset
  /-- `.word w`: any raw command word. -/
  | word (w : CmdWord)
  /-- `FEEDS b0, b1, ..., bk`. -/
  | feeds (bytes : List Byte)
  /-- `FRAME op, p0, ..., pm`. -/
  | frame (op : Byte) (payload : List Byte)
  /-- `SYNC_ON` with the listed ids. -/
  | syncOn (ids : List ButtonId)
  | syncAllOn
  | syncAllOff
deriving DecidableEq, Repr

/-- The vector with the listed bits 1 and all other bits 0 (R79, SYNC_ON). -/
def bitsOn (ids : List ButtonId) : Buttons :=
  ids.foldl (fun s j => s ||| BitVec.twoPow 64 j.val) 0

/-- The command words of a run of FEEDs (R79). -/
def feedWords (bytes : List Byte) : List CmdWord := bytes.map fun b => packCmd 0 b 1

/-- The command words a line stands for (R78, R79). -/
def lineWords : AsmLine → List CmdWord
  | .nop => [packCmd 0 0 0]
  | .feed b => [packCmd 0 b 1]
  | .sync states => [packCmd states 0 2]
  | .emitFactoryReset => [packCmd 0 0 3]
  | .emitMapRequest => [packCmd 0 0 4]
  | .lookup note => [packCmd 0 note 5]
  | .reset => [packCmd 0 0 6]
  | .word w => [w]
  | .feeds bytes => feedWords bytes
  | .frame op payload => feedWords (frameBytes op payload)
  | .syncOn ids => [packCmd (bitsOn ids) 0 2]
  | .syncAllOn => [packCmd (BitVec.allOnes 64) 0 2]
  | .syncAllOff => [packCmd 0 0 2]

/-- The stream of requests that a program issues. -/
def assemble (program : List AsmLine) : List Request :=
  (program.flatMap lineWords).map .command

/-! ### Program text -/

/-- What separates the words of a line: a blank, a comma, or a brace of SYNC_ON's list (log entry 15). -/
def isSeparator (c : Char) : Bool :=
  c = ' ' || c = '\t' || c = '\r' || c = ',' || c.toNat = 123 || c.toNat = 125

/-- The pieces of a text between separating characters; empty pieces are kept. -/
def splitText (sep : Char → Bool) : List Char → List (List Char)
  | [] => [[]]
  | c :: more =>
    match splitText sep more with
    | [] => [[]]
    | piece :: pieces => if sep c then [] :: piece :: pieces else (c :: piece) :: pieces

/-- The words of a line, without the comment that a `;` starts (R78). -/
def lineTokens (line : List Char) : List (List Char) :=
  (splitText isSeparator (line.takeWhile (· != ';'))).filter (· != [])

/-- The value of a digit in bases up to 16. -/
def digitValue (c : Char) : Option Nat :=
  if '0'.toNat ≤ c.toNat ∧ c.toNat ≤ '9'.toNat then some (c.toNat - '0'.toNat)
  else if 'a'.toNat ≤ c.toNat ∧ c.toNat ≤ 'f'.toNat then some (c.toNat - 'a'.toNat + 10)
  else if 'A'.toNat ≤ c.toNat ∧ c.toNat ≤ 'F'.toNat then some (c.toNat - 'A'.toNat + 10)
  else none

/-- Digits read in a base after a value already read; every digit must be below the base. -/
def readDigits (base : Nat) : Nat → List Char → Option Nat
  | acc, [] => some acc
  | acc, c :: more =>
    match digitValue c with
    | none => none
    | some d => if d < base then readDigits base (acc * base + d) more else none

/-- A number in decimal, or in hexadecimal with the prefix `0x`: R78's form of `b` and `n`. DESIGN CHOICE (log entry 15):
the operand of `.word`, the bytes of FEEDS and FRAME and the ids of SYNC_ON are written in this form too. -/
def readNumber : List Char → Option Nat
  | '0' :: 'x' :: c :: more => readDigits 16 0 (c :: more)
  | c :: more => readDigits 10 0 (c :: more)
  | [] => none

/-- A number below a bound. -/
def readBelow (bound : Nat) (t : List Char) : Option Nat :=
  match readNumber t with
  | some v => if v < bound then some v else none
  | none => none

/-- A 64-bit state vector in hexadecimal, with or without the prefix `0x` (R78). -/
def readStates (t : List Char) : Option Buttons :=
  let value :=
    match t with
    | '0' :: 'x' :: c :: more => readDigits 16 0 (c :: more)
    | c :: more => readDigits 16 0 (c :: more)
    | [] => none
  match value with
  | some v => if v < 2 ^ 64 then some (BitVec.ofNat 64 v) else none
  | none => none

/-- A byte operand (R78). -/
def readByte (t : List Char) : Option Byte := (readBelow 256 t).map (BitVec.ofNat 8)

/-- A list of byte operands, each in the form of `readNumber` (log entry 15). -/
def readBytes : List (List Char) → Option (List Byte)
  | [] => some []
  | t :: more => (readByte t).bind fun b => (readBytes more).map (b :: ·)

/-- The ids of SYNC_ON's list (R79). DESIGN CHOICE (log entry 15): an id is in the form of `readNumber`, where the spec gives
ids no form; and the list may be empty, which stands for SYNC of the vector of all 0, where the spec is silent on m = 0. -/
def readIds : List (List Char) → Option (List ButtonId)
  | [] => some []
  | t :: more => (readBelow 64 t).bind fun j => (readIds more).map (Fin.ofNat 64 j :: ·)

/-- A line without operands. -/
def readPlain (line : AsmLine) : List (List Char) → Option AsmLine
  | [] => some line
  | _ :: _ => none

/-- A line with one operand. -/
def readOne (line : List Char → Option AsmLine) : List (List Char) → Option AsmLine
  | [t] => line t
  | _ => none

/-- The line that a mnemonic and its operands make (R78, R79); `none` where they make none. DESIGN CHOICE (log entry 15):
the operand of `.word` is decimal unless it has the prefix `0x`, where the spec shows it with the prefix and as the one
digit 7 but gives it no form; FEEDS without a byte makes no line, and SYNC_ON without an id makes one. -/
def readTokens (name : List Char) (args : List (List Char)) : Option AsmLine :=
  if name = "NOP".toList then readPlain .nop args
  else if name = "FEED".toList then readOne (fun t => (readByte t).map .feed) args
  else if name = "SYNC".toList then
    readOne (fun t => (readStates t).map .sync) args
  else if name = "EMIT_FACTORY_RESET".toList then readPlain .emitFactoryReset args
  else if name = "EMIT_MAP_REQUEST".toList then readPlain .emitMapRequest args
  else if name = "LOOKUP".toList then readOne (fun t => (readByte t).map .lookup) args
  else if name = "RESET".toList then readPlain .reset args
  else if name = ".word".toList then
    readOne (fun t => (readBelow (2 ^ 75) t).map fun v => .word (BitVec.ofNat 75 v)) args
  else if name = "FEEDS".toList then
    match readBytes args with
    | some (b :: bytes) => some (.feeds (b :: bytes))
    | _ => none
  else if name = "FRAME".toList then
    match readBytes args with
    | some (op :: payload) => some (.frame op payload)
    | _ => none
  else if name = "SYNC_ON".toList then (readIds args).map .syncOn
  else if name = "SYNC_ALL_ON".toList then readPlain .syncAllOn args
  else if name = "SYNC_ALL_OFF".toList then readPlain .syncAllOff args
  else none

/-- One line of text: nothing where it is blank or only a comment. -/
def readLine (line : List Char) : Option (List AsmLine) :=
  match lineTokens line with
  | [] => some []
  | name :: args => (readTokens name args).map fun l => [l]

/-- The lines of a program text, one command a line (R78). -/
def readLines : List (List Char) → Option (List AsmLine)
  | [] => some []
  | line :: more => (readLine line).bind fun l => (readLines more).map (l ++ ·)

/-- A program text (R78). -/
def readProgram (text : List Char) : Option (List AsmLine) :=
  readLines (splitText (· = '\n') text)

end Sys2Proof.Machine
end

