-- ==== Sys2Proof/Safety.lean ====
section
/-! DEFINITION. What counts as a safe state and a legal response, in the terms the statements use: the invariants of
spec/10_state.md R29, the codes of spec/60_exceptions.md R200, what the host can see (spec/70_reset_and_hazards.md R230),
and a plain-buffer decoder to compare the block with (spec/40_rx_decoder.md R107 e, log entry 16). -/

namespace Sys2Proof.Machine

open Config

/-- INV1 to INV4 of 10_state.md R29. -/
structure Block.RxInv (k : Block) : Prop where
  /-- INV1. -/
  idle_empty : k.rxMode = .idle → k.rxBuf = [] ∧ k.rxOvf = false
  /-- INV2. -/
  acc_opened : k.rxMode = .acc → k.rxBuf.head? = some sox ∧ ∀ b ∈ k.rxBuf.tail, plainByte b = true
  /-- INV3. -/
  bounded : k.rxBuf.length ≤ maxFrame - 1
  /-- INV4. -/
  ovf_full : k.rxOvf = true → k.rxMode = .acc ∧ k.rxBuf.length = maxFrame - 1

/-- A written map holds no marker (10_state.md R28, S4). -/
def Block.MapInv (k : Block) : Prop :=
  k.mapValid = true → ∀ i : ButtonId, plainByte (k.noteAt i) = true

/-- The invariant of the block. -/
def State.Inv (s : State) : Prop := s.block.RxInv ∧ s.block.MapInv

/-- The pairs of status and info that 60_exceptions.md R200 lists, less the two that FEED never returns
(40_rx_decoder.md R107 a). -/
def returnedCodes : List (BitVec 3 × BitVec 3) :=
  [(0, 0), (1, 1), (1, 2), (1, 3), (1, 4), (1, 5), (2, 0), (3, 1), (3, 2), (4, 0)]

/-- A response that the block may give: its codes are listed, its map status and the lengths of its payload and of its
outbound frame are among those of 30_encoding.md R76, an INVALID_FRAME carries no event, INVALID_MAP_PAYLOAD carries
one, and a response that emits a frame or gives an id reports no error (60_exceptions.md R207). -/
structure Response.Legal (r : Response) : Prop where
  codes : (r.status, r.info) ∈ returnedCodes
  mst : ∀ e, r.rxEvt = some e → e.mst ≠ 3
  payload : ∀ e, r.rxEvt = some e → e.payload.length + 7 ≤ maxFrame
  frame : ∀ f, r.txFrame = some f → f.length ∈ [19, 7, 8]
  invalid_silent : r.status = 1 → r.rxEvt = none
  rejected_reported : r.status = 2 → ∃ e, r.rxEvt = some e ∧ e.mst = mstMapRejected
  emits_ok : r.txFrame ≠ none → r.status = 0
  id_ok : r.lk ≠ none → r.status = 0

/-- Two block states that the host cannot tell apart: they agree on all but a map_note that no map has established
(70_reset_and_hazards.md R230). -/
structure Block.SameToHost (a b : Block) : Prop where
  rxMode : a.rxMode = b.rxMode
  rxBuf : a.rxBuf = b.rxBuf
  rxOvf : a.rxOvf = b.rxOvf
  mapValid : a.mapValid = b.mapValid
  mapNote : a.mapValid = true → a.mapNote = b.mapNote

/-- What a decoder tells of one byte: nothing, an invalid frame, or a frame's operation and payload. -/
inductive Verdict where
  | silent
  | invalid
  | frame (op : Byte) (payload : List Byte)
deriving DecidableEq, Repr

/-- What a FEED response tells, less its sub-reason. -/
def Response.verdict (r : Response) : Verdict :=
  if r.status = 1 then .invalid
  else
    match r.rxEvt with
    | some e => .frame e.op e.payload
    | none => .silent

/-- The plain buffer of 40_rx_decoder.md R107 (e), completed by two choices of the model. From the source: a 240 replaces
the buffer, every other byte is appended, those before any 240 too, and a 247 has it parsed. DESIGN CHOICE (log entry 16):
the buffer is empty after a 247, valid frame or not, where the source does not say whether it is (90_conflicts.md C3,
91_not_in_source.md N12, decision D8); and a frame of more than `bound` bytes is invalid, where the source has no bound. -/
def plainFeed (bound : Nat) (b : Byte) (buf : List Byte) : List Byte × Verdict :=
  if b = sox then ([sox], .silent)
  else if b = eox then
    match parseFrame (buf ++ [eox]) (decide (bound < buf.length + 1)) with
    | .invalid _ => ([], .invalid)
    | .valid op p => ([], .frame op p)
  else (buf ++ [b], .silent)

/-- The verdicts of `plainFeed` over a stream of bytes. -/
def plainFeeds (bound : Nat) : List Byte → List Byte → List Verdict
  | [], _ => []
  | b :: more, buf => (plainFeed bound b buf).2 :: plainFeeds bound more (plainFeed bound b buf).1

end Sys2Proof.Machine
end

