-- ==== Sys2Proof/Certificates/Slice0/Obligations.lean ====
section
/-! DEFINITION. The statements for the provers. `State.outbox` is the model's record of the responses of
spec/30_encoding.md R76 (log entry 2), so "the command returns r" reads "r is appended to outbox", and each `with`
names all that the instruction changes. -/

open Sys2Proof Sys2Proof.Machine Sys2Proof.Config

/-! ### Control commands (spec/42_control.md) -/

/-- R180. NOP, from its word to its response: every field of the response at its default, nothing else changed. -/
def Obligations.NopReturnsTheDefaultResponse : Prop :=
  (∀ w : CmdWord, w.extractLsb' 0 3 = 0 → decodeCommand w = .nop) ∧
    ∀ s : State, exec .nop s = .next { s with
      outbox := s.outbox ++ [{ status := 0, info := 0, rxEvt := none, txFrame := none, lk := none }] }

/-- R182, R205. The reserved command, with any B and S: IllegalCommand(0) and no state change. -/
def Obligations.ReservedReportsIllegalCommand : Prop :=
  (∀ w : CmdWord, w.extractLsb' 0 3 = 7 → decodeCommand w = .reserved) ∧
    ∀ s : State, exec .reserved s = .next { s with
      outbox := s.outbox ++ [{ Response.ok with status := 4, info := 0 }] }

/-- R181 with R230. RESET leaves the RX unit idle and empty and no map; a LOOKUP then raises UnresolvedButton(1), and a
second RESET leaves the same registers. Nothing is said of map_note, which then holds any value (log entry 7). -/
def Obligations.ResetPutsTheBlockInItsInitialState : Prop :=
  (∀ w : CmdWord, w.extractLsb' 0 3 = 6 → decodeCommand w = .reset) ∧
    ∀ s : State, ∃ t, exec .reset s = .next t ∧
      t.block.rxMode = .idle ∧ t.block.rxBuf = [] ∧ t.block.rxOvf = false ∧
      t.block.mapValid = false ∧ t.inbox = s.inbox ∧ t.outbox = s.outbox ++ [Response.ok] ∧
      (∀ n, exec (.lookup n) t = .next { t with
        outbox := t.outbox ++ [{ Response.ok with status := 3, info := 1 }] }) ∧
      ∃ u, exec .reset t = .next u ∧ u.block.rxMode = t.block.rxMode ∧
        u.block.rxBuf = t.block.rxBuf ∧ u.block.rxOvf = t.block.rxOvf ∧
        u.block.mapValid = t.block.mapValid

/-- R230, R231: the registers at power-on. The value of map_note is the model's (log entry 6) and is not stated. -/
def Obligations.PowerOnStateIsIdleWithNoMap : Prop :=
  State.reset.block.rxMode = .idle ∧ State.reset.block.rxBuf = [] ∧
    State.reset.block.rxOvf = false ∧ State.reset.block.mapValid = false

/-! ### The TX unit (spec/41_tx_encoder.md) -/

/-- R160, R63. EMIT_FACTORY_RESET emits its fixed frame and changes no block state. -/
def Obligations.FactoryResetEmitsItsFixedFrame : Prop :=
  (∀ w : CmdWord, w.extractLsb' 0 3 = 3 → decodeCommand w = .emitFactoryReset) ∧
    ∀ s : State, exec .emitFactoryReset s = .next { s with
      outbox := s.outbox ++ [{ Response.ok with txFrame := some [240, 0, 1, 97, 2, 6, 247] }] }

/-- R161. EMIT_MAP_REQUEST emits its fixed frame and changes no block state; the map stays as it was. -/
def Obligations.MapRequestEmitsItsFixedFrame : Prop :=
  (∀ w : CmdWord, w.extractLsb' 0 3 = 4 → decodeCommand w = .emitMapRequest) ∧
    ∀ s : State, exec .emitMapRequest s = .next { s with
      outbox := s.outbox ++ [{ Response.ok with txFrame := some [240, 0, 1, 97, 2, 7, 11, 247] }] }

/-- R150. SYNC, from its word to its frame: 19 bytes, of which bit j of byte 6 + 2c is set exactly where slot j of
column c holds a button that is OFF, and bit j of byte 7 + 2c where slot 7 + j does; every other bit is fixed. -/
def Obligations.SyncEmitsTheSlotBitsOfEveryColumn : Prop :=
  (∀ w : CmdWord, w.extractLsb' 0 3 = 2 → decodeCommand w = .sync (w.extractLsb' 11 64)) ∧
    ∀ (s : State) (states : Buttons), ∃ f : List Byte,
      exec (.sync states) s = .next { s with
        outbox := s.outbox ++ [{ Response.ok with txFrame := some f }] } ∧
      f.length = 19 ∧ f.take 6 = [240, 0, 1, 97, 2, 4] ∧ f[18]? = some 247 ∧
      ∀ c < 6, ∃ lo hi : Byte, f[6 + 2 * c]? = some lo ∧ f[7 + 2 * c]? = some hi ∧
        lo.getLsbD 7 = false ∧ hi.getLsbD 7 = false ∧
        ∀ j < 7,
          (lo.getLsbD j = true ↔ ∃ id, mask c j = some id ∧ states.getLsbD id.val = false) ∧
          (hi.getLsbD j = true ↔ ∃ id, mask c (7 + j) = some id ∧ states.getLsbD id.val = false)

/-- R151. For every table: the iteration of R150 gives the closed form, both values lie in 0..127, and slot k is bit k
of its value. -/
def Obligations.ColumnIterationEqualsTheClosedForm : Prop :=
  ∀ (m : Mask) (states : Buttons) (c : Nat),
    (packColumn m states c).lo = ∑ k ∈ Finset.range 7, (slotOff m states c k).toNat * 2 ^ k ∧
    (packColumn m states c).hi =
      ∑ k ∈ Finset.range 7, (slotOff m states c (7 + k)).toNat * 2 ^ k ∧
    (packColumn m states c).lo < 128 ∧ (packColumn m states c).hi < 128 ∧
    ∀ k < 7, (packColumn m states c).lo.testBit k = slotOff m states c k ∧
      (packColumn m states c).hi.testBit k = slotOff m states c (7 + k)

/-- R153 (b): with every button ON, every payload byte is 0, whatever the table. -/
def Obligations.SyncAllOnEmitsZeros : Prop :=
  (∀ m : Mask, syncPayload m (BitVec.allOnes 64) = List.replicate 12 0) ∧
    ∀ s : State, exec (.sync (BitVec.allOnes 64)) s = .next { s with
      outbox := s.outbox ++ [{ Response.ok with
        txFrame := some [240, 0, 1, 97, 2, 4, 0, 0, 0, 0, 0, 0, 0, 0, 0, 0, 0, 0, 247] }] }

/-- R153 (d), with WF2: two state vectors that differ only in ButtonId 0 give frames that differ only in bit 0 of
byte 6, which is set where button 0 is OFF. -/
def Obligations.FlippingButton0FlipsBit0OfByte6 : Prop :=
  ∀ (m : Mask) (states : Buttons), m.Wf2 →
    syncFrameOf m (states ^^^ 1) =
      (syncFrameOf m states).set 6 (((syncFrameOf m states).getD 6 0) ^^^ 1) ∧
    ((syncFrameOf m states).getD 6 0).getLsbD 0 = !states.getLsbD 0

/-- R153 (e): under MASK_INJECTIVE, flipping ButtonId j flips exactly the one bit of the slot that holds j, and
changes nothing where no slot does. -/
def Obligations.FlippingAButtonFlipsItsOneSlotBit : Prop :=
  ∀ (m : Mask) (states : Buttons) (j : ButtonId), m.Injective →
    ((∀ c k, c < 6 → k < 14 → m c k ≠ some j) →
      syncFrameOf m (states ^^^ BitVec.twoPow 64 j.val) = syncFrameOf m states) ∧
    ∀ c k, c < 6 → k < 14 → m c k = some j →
      let at_ := 6 + 2 * c + k / 7
      syncFrameOf m (states ^^^ BitVec.twoPow 64 j.val) =
        (syncFrameOf m states).set at_
          (((syncFrameOf m states).getD at_ 0) ^^^ BitVec.twoPow 8 (k % 7))

/-- R151, R153 (a), (f): for every table, two state vectors give the same frame exactly where they agree on every
button that the table shows. -/
def Obligations.SyncFrameShowsExactlyTheMappedButtons : Prop :=
  ∀ (m : Mask) (a b : Buttons),
    syncFrameOf m a = syncFrameOf m b ↔
      ∀ c k id, c < 6 → k < 14 → m c k = some id → a.getLsbD id.val = b.getLsbD id.val

/-- R31, R32: the parameters meet the conditions that the spec puts on them. -/
def Obligations.ParametersMeetTheirConditions : Prop :=
  Mask.Wf2 mask ∧ 135 ≤ maxFrame

/-! ### FEED (spec/40_rx_decoder.md) -/

/-- R100 but for EndFrame: FEED from its word to its effect, for every byte in every state in which it does not close
an open frame. -/
def Obligations.FeedFramesTheByteStream : Prop :=
  (∀ w : CmdWord, w.extractLsb' 0 3 = 1 → decodeCommand w = .feed (w.extractLsb' 3 8)) ∧
    ∀ (s : State) (b : Byte),
      (b = 240#8 → exec (.feed b) s = .next { s with
        block := { s.block with rxMode := .acc, rxBuf := [240#8], rxOvf := false }
        outbox := s.outbox ++ [Response.ok] }) ∧
      (s.block.rxMode = .idle → b = 247#8 → exec (.feed b) s = .next { s with
        outbox := s.outbox ++ [{ Response.ok with status := 1, info := 1 }] }) ∧
      (s.block.rxMode = .idle → b ≠ 240#8 → b ≠ 247#8 →
        exec (.feed b) s = .next { s with outbox := s.outbox ++ [Response.ok] }) ∧
      (s.block.rxMode = .acc → b ≠ 240#8 → b ≠ 247#8 → s.block.rxBuf.length < maxFrame - 1 →
        exec (.feed b) s = .next { s with
          block := { s.block with rxBuf := s.block.rxBuf ++ [b] }
          outbox := s.outbox ++ [Response.ok] }) ∧
      (s.block.rxMode = .acc → b ≠ 240#8 → b ≠ 247#8 → maxFrame - 1 ≤ s.block.rxBuf.length →
        exec (.feed b) s = .next { s with
          block := { s.block with rxOvf := true }
          outbox := s.outbox ++ [Response.ok] })

/-- R102. ParseFrame accepts exactly the frames of the dialect, and otherwise gives the reason of the first check that
fails, in the order OVERFLOW, SHORT, START, HEADER, DEVICE, END, with the info code of each. -/
def Obligations.ParseFrameAcceptsExactlyTheDialect : Prop :=
  ∀ (f : List Byte) (o : Bool),
    (∀ op p, parseFrame f o = .valid op p ↔ o = false ∧ f = [240, 0, 1, 97, 2, op] ++ p ++ [247]) ∧
    (parseFrame f o = .invalid .overflow ↔ o = true) ∧
    (parseFrame f o = .invalid .short ↔ o = false ∧ f.length < 7) ∧
    (parseFrame f o = .invalid .badStart ↔ o = false ∧ 7 ≤ f.length ∧ f[0]? ≠ some 240) ∧
    (parseFrame f o = .invalid .header ↔ o = false ∧ 7 ≤ f.length ∧ f[0]? = some 240 ∧
      (f.drop 1).take 3 ≠ [0, 1, 97]) ∧
    (parseFrame f o = .invalid .device ↔ o = false ∧ 7 ≤ f.length ∧
      f.take 4 = [240, 0, 1, 97] ∧ f[4]? ≠ some 2) ∧
    (parseFrame f o = .invalid .badEnd ↔ o = false ∧ 7 ≤ f.length ∧
      f.take 5 = [240, 0, 1, 97, 2] ∧ f.getLast? ≠ some 247) ∧
    parseFrame f o ≠ .invalid .noStart ∧
    [Reason.overflow, .short, .badStart, .header, .device, .badEnd].map reasonCode = [2, 3, 6, 4, 5, 7]

/-- R106 with R101. An end marker that closes an open frame always completes with the RX registers idle and empty and
one response; where that reports INVALID_FRAME it carries no event and the map is as it was. -/
def Obligations.EndMarkerClosesTheFrameWhateverItHolds : Prop :=
  ∀ s : State, s.block.rxMode = .acc → ∃ t r, exec (.feed 247#8) s = .next t ∧
    t.outbox = s.outbox ++ [r] ∧ t.inbox = s.inbox ∧ t.draws = s.draws ∧
    t.block.rxMode = .idle ∧ t.block.rxBuf = [] ∧ t.block.rxOvf = false ∧
    r.txFrame = none ∧ r.lk = none ∧
    (r.status = 1 →
      r.rxEvt = none ∧ t.block.mapValid = s.block.mapValid ∧ t.block.mapNote = s.block.mapNote)

/-- R105, R103. A valid frame whose operation is not 11 is returned as FRAME(op, payload, NOT_MAP) with status OK, and
changes nothing but the RX registers, which close. -/
def Obligations.ValidFrameOfAnotherOperationIsReturned : Prop :=
  ∀ (s : State) (op : Byte) (p : List Byte), s.block.rxMode = .acc → s.block.rxOvf = false →
    s.block.rxBuf = [240, 0, 1, 97, 2, op] ++ p → op ≠ 11 →
    exec (.feed 247#8) s = .next { s with
      block := { s.block with rxMode := .idle, rxBuf := [], rxOvf := false }
      outbox := s.outbox ++
        [{ Response.ok with rxEvt := some { op := op, payload := p, mst := 0 } }] }

/-- R104. A valid operation-11 frame with a payload of 128 bytes replaces the whole map, entry i by payload byte 2i; any
other payload is rejected with the map as it was. The frame is returned either way. -/
def Obligations.MapFrameReplacesTheWholeMapOrNothing : Prop :=
  ∀ (s : State) (p : List Byte), s.block.rxMode = .acc → s.block.rxOvf = false →
    s.block.rxBuf = [240, 0, 1, 97, 2, 11] ++ p →
    (p.length = 128 → ∃ notes : Vector Byte 64,
      (∀ i : Fin 64, p[2 * i.val]? = some notes[i.val]) ∧
      exec (.feed 247#8) s = .next { s with
        block := { rxMode := .idle, rxBuf := [], rxOvf := false, mapValid := true, mapNote := notes }
        outbox := s.outbox ++
          [{ Response.ok with rxEvt := some { op := 11, payload := p, mst := 1 } }] }) ∧
    (p.length ≠ 128 → exec (.feed 247#8) s = .next { s with
      block := { s.block with rxMode := .idle, rxBuf := [], rxOvf := false }
      outbox := s.outbox ++ [{ Response.ok with
        status := 2, info := 0, rxEvt := some { op := 11, payload := p, mst := 2 } }] })

/-- R201, R102. Which INVALID_FRAME reason an end marker reports, for a frame opened by its 240: OVERFLOW, then SHORT,
then HEADER, then DEVICE; each closes the RX registers and changes nothing else. -/
def Obligations.InvalidFrameReportsItsReason : Prop :=
  ∀ s : State, s.block.rxMode = .acc → s.block.rxBuf.head? = some 240#8 →
    let fails (code : BitVec 3) : Prop := exec (.feed 247#8) s = .next { s with
      block := { s.block with rxMode := .idle, rxBuf := [], rxOvf := false }
      outbox := s.outbox ++ [{ Response.ok with status := 1, info := code }] }
    (s.block.rxOvf = true → fails 2) ∧
    (s.block.rxOvf = false → s.block.rxBuf.length < 6 → fails 3) ∧
    (s.block.rxOvf = false → 6 ≤ s.block.rxBuf.length →
      (s.block.rxBuf.drop 1).take 3 ≠ [0, 1, 97] → fails 4) ∧
    (s.block.rxOvf = false → 6 ≤ s.block.rxBuf.length →
      (s.block.rxBuf.drop 1).take 3 = [0, 1, 97] → s.block.rxBuf[4]? ≠ some 2 → fails 5)

/-- R107 (a), (b). In a state that meets the invariant, FEED reports INVALID_FRAME with info 1 to 5 only, or
INVALID_MAP_PAYLOAD, or OK. -/
def Obligations.FeedNeverReportsStartOrEnd : Prop :=
  ∀ (s : State) (b : Byte), s.Inv → ∃ t r, exec (.feed b) s = .next t ∧ t.outbox = s.outbox ++ [r] ∧
      (r.status = 0 ∨ r.status = 2 ∨ (r.status = 1 ∧ r.info ∈ ([1, 2, 3, 4, 5] : List (BitVec 3))))

/-- R107 (c). A frame fed byte by byte, from any state, is reported as OVERFLOW exactly where its bytes, markers
included, are more than MAX_FRAME. -/
def Obligations.OverflowExactlyWhenTheFrameIsTooLong : Prop :=
  ∀ (s : State) (body : List Byte), (∀ b ∈ body, b ≠ 240#8 ∧ b ≠ 247#8) →
    ∃ t r, Host.Core.run Sys2Proof.core (body.length + 2)
        { s with inbox := ([240] ++ body ++ [247]).map (fun b => encode (.feed b)) } = .next t ∧
      t.outbox.getLast? = some r ∧ t.inbox = [] ∧
      ((r.status = 1 ∧ r.info = 2) ↔ maxFrame < body.length + 2)

/-- R107 (e), C3. Over any stream of bytes from an idle block, the block and the plain buffer `plainFeed` tell the same:
nothing, an invalid frame, or the same operation and payload. That the plain buffer is emptied at every 247 and that frames
above MAX_FRAME are invalid in it are the model's choices (log entry 16); the source states neither (91_not_in_source.md
N12, N6). -/
def Obligations.PlainBufferDecoderTellsTheSame : Prop :=
  ∀ (bytes : List Byte) (k : Block), k.rxMode = .idle →
    (feedBytes maxFrame bytes k).2.map Response.verdict = plainFeeds maxFrame bytes []

/-! ### LOOKUP -/

/-- R110, R204. LOOKUP from its word to its answer: UnresolvedButton(1) before any map, UnresolvedButton(2) for a note
that no entry holds, and otherwise the greatest ButtonId whose entry holds it; no state is written. -/
def Obligations.LookupAnswersTheGreatestId : Prop :=
  (∀ w : CmdWord, w.extractLsb' 0 3 = 5 → decodeCommand w = .lookup (w.extractLsb' 3 8)) ∧
    ∀ (s : State) (n : Byte),
      (s.block.mapValid = false → exec (.lookup n) s = .next { s with
        outbox := s.outbox ++ [{ Response.ok with status := 3, info := 1 }] }) ∧
      (s.block.mapValid = true → (∀ i : Fin 64, s.block.mapNote[i.val] ≠ n) →
        exec (.lookup n) s = .next { s with
          outbox := s.outbox ++ [{ Response.ok with status := 3, info := 2 }] }) ∧
      ∀ i : Fin 64, s.block.mapValid = true → s.block.mapNote[i.val] = n →
        (∀ j : Fin 64, i < j → s.block.mapNote[j.val] ≠ n) →
        exec (.lookup n) s = .next { s with
          outbox := s.outbox ++ [{ Response.ok with lk := some (BitVec.ofNat 6 i.val) }] }

/-- R110, last corner cases. In a state that meets the invariant, LOOKUP of a marker is always UnresolvedButton. -/
def Obligations.LookupOfAMarkerIsNeverResolved : Prop :=
  ∀ (s : State) (n : Byte), s.Inv → n = 240#8 ∨ n = 247#8 →
    ∃ r, exec (.lookup n) s = .next { s with outbox := s.outbox ++ [r] } ∧
      r.status = 3 ∧ r.lk = none

/-! ### Wire frames received (spec/30_encoding.md R60 to R66) -/

/-- R105 at the level of whole frames (log entries 4 and 12): a well-formed frame that is no button map, received in any
state, answers the default to every byte but the last and there returns the frame; only the RX registers change. -/
def Obligations.ReceivedFrameIsReturnedAndChangesNoMap : Prop :=
  ∀ s : State,
    let returned (op : Byte) (p : List Byte) : Host.Outcome State Fault Refusal := .next { s with
      block := { s.block with rxMode := .idle, rxBuf := [], rxOvf := false }
      outbox := s.outbox ++ List.replicate (p.length + 6) Response.ok ++
        [{ Response.ok with rxEvt := some { op := op, payload := p, mst := 0 } }] }
    (∀ cols, exec (.syncFrame cols) s = returned 4 (cols.toList.map (·.zeroExtend 8))) ∧
    exec .factoryResetFrame s = returned 6 [] ∧
    exec .mapRequestFrame s = returned 7 [11] ∧
    ∀ op p, WellFormed (.otherValidFrame op p) = true → exec (.otherValidFrame op p) s = returned op p

/-- R104 at the level of whole frames (log entries 4 and 12): a well-formed operation-11 frame, received in any state,
replaces the whole map where its payload has 128 bytes, and else changes only the RX registers and is rejected. -/
def Obligations.ReceivedMapResponseReplacesTheMap : Prop :=
  ∀ (s : State) (p : List Byte), WellFormed (.mapResponseFrame p) = true →
    (p.length = 128 → ∃ notes : Vector Byte 64,
      (∀ i : Fin 64, p[2 * i.val]? = some notes[i.val]) ∧
      exec (.mapResponseFrame p) s = .next { s with
        block := { rxMode := .idle, rxBuf := [], rxOvf := false, mapValid := true, mapNote := notes }
        outbox := s.outbox ++ List.replicate 134 Response.ok ++
          [{ Response.ok with rxEvt := some { op := 11, payload := p, mst := 1 } }] }) ∧
    (p.length ≠ 128 → exec (.mapResponseFrame p) s = .next { s with
      block := { s.block with rxMode := .idle, rxBuf := [], rxOvf := false }
      outbox := s.outbox ++ List.replicate (p.length + 6) Response.ok ++ [{ Response.ok with
        status := 2, info := 0, rxEvt := some { op := 11, payload := p, mst := 2 } }] })

/-- R79 with R50: a wire frame performed as one instruction leaves exactly what the FEED commands of its bytes leave,
issued one by one (log entry 4). -/
def Obligations.WireFrameEqualsItsFeeds : Prop :=
  ∀ (s : State) (i : Instr) (bytes : List Byte) (rest : List Request), encode i = .wire bytes →
    Host.Core.run Sys2Proof.core bytes.length
      { s with inbox := bytes.map (fun b => encode (.feed b)) ++ rest } =
        exec i { s with inbox := rest }

/-- R111, R112 with R110: after a well-formed map response of 128 bytes, received in any state, LOOKUP answers from that
frame alone: the greatest id whose note in the payload is the one asked for, or UnresolvedButton(2). That the frame is one
instruction is the model's form (log entries 4 and 12). -/
def Obligations.LookupAnswersFromTheLastMapFrame : Prop :=
  ∀ (s : State) (p : List Byte) (n : Byte), WellFormed (.mapResponseFrame p) = true →
    p.length = 128 → ∃ t, exec (.mapResponseFrame p) s = .next t ∧
      ((∀ i < 64, p[2 * i]? ≠ some n) → exec (.lookup n) t = .next { t with
        outbox := t.outbox ++ [{ Response.ok with status := 3, info := 2 }] }) ∧
      ∀ i < 64, p[2 * i]? = some n → (∀ j, i < j → j < 64 → p[2 * j]? ≠ some n) →
        exec (.lookup n) t = .next { t with
          outbox := t.outbox ++ [{ Response.ok with lk := some (BitVec.ofNat 6 i) }] }

/-- R105, R153, R66: every frame that the block emits is a frame of its own dialect: SYNC's decodes to the sync frame
whose values are the column values, and the two fixed frames to theirs. -/
def Obligations.EmittedFramesAreFramesOfTheDialect : Prop :=
  (∀ (s : State) (states : Buttons), ∃ f cols,
    exec (.sync states) s = .next { s with
      outbox := s.outbox ++ [{ Response.ok with txFrame := some f }] } ∧
    decodeFrame f = .ok (.syncFrame cols) ∧ encode (.syncFrame cols) = .wire f ∧
    ∀ c k, c < 6 → k < 14 →
      cols[2 * c + k / 7]?.map (·.getLsbD (k % 7)) = some (slotOff mask states c k)) ∧
  (∀ s : State, ∃ f, exec .emitFactoryReset s = .next { s with
      outbox := s.outbox ++ [{ Response.ok with txFrame := some f }] } ∧
    decodeFrame f = .ok .factoryResetFrame) ∧
  ∀ s : State, ∃ f, exec .emitMapRequest s = .next { s with
      outbox := s.outbox ++ [{ Response.ok with txFrame := some f }] } ∧
    decodeFrame f = .ok .mapRequestFrame

/-! ### Encoding (spec/30_encoding.md) -/

/-- R71, R73: the word S * 2^11 + B * 2^3 + OP decodes to the command of its OP, with the operands that command reads. -/
def Obligations.CommandWordDecodesByItsOp : Prop :=
  ∀ (states : Buttons) (b : Byte),
    let word (op : Nat) : CmdWord := BitVec.ofNat 75 (states.toNat * 2 ^ 11 + b.toNat * 2 ^ 3 + op)
    decodeCommand (word 0) = .nop ∧ decodeCommand (word 1) = .feed b ∧
    decodeCommand (word 2) = .sync states ∧ decodeCommand (word 3) = .emitFactoryReset ∧
    decodeCommand (word 4) = .emitMapRequest ∧ decodeCommand (word 5) = .lookup b ∧
    decodeCommand (word 6) = .reset ∧ decodeCommand (word 7) = .reserved

/-- R74: command words that agree on OP and on the operands that the command reads decode alike. -/
def Obligations.UnreadOperandFieldsAreIgnored : Prop :=
  ∀ v w : CmdWord, cmdOp v = cmdOp w → (cmdOp v = 1 ∨ cmdOp v = 5 → cmdB v = cmdB w) →
    (cmdOp v = 2 → cmdS v = cmdS w) → decodeCommand v = decodeCommand w

/-- R80: the words of the table of encoding examples decode to the commands they stand for. -/
def Obligations.EncodingExamplesDecode : Prop :=
  decodeCommand 0x0000000000000000000 = .nop ∧
    decodeCommand 0x0000000000000000781 = .feed 240 ∧
    decodeCommand 0x0000000000000000001 = .feed 0 ∧
    decodeCommand 0x0000000000000000009 = .feed 1 ∧
    decodeCommand 0x0000000000000000309 = .feed 97 ∧
    decodeCommand 0x0000000000000000011 = .feed 2 ∧
    decodeCommand 0x0000000000000000031 = .feed 6 ∧
    decodeCommand 0x0000000000000000059 = .feed 11 ∧
    decodeCommand 0x00000000000000007B9 = .feed 247 ∧
    decodeCommand 0x0000000000000000002 = .sync 0x0 ∧
    decodeCommand 0x0000000000000000802 = .sync 0x1 ∧
    decodeCommand 0x7FFFFFFFFFFFFFFF002 = .sync 0xFFFFFFFFFFFFFFFE ∧
    decodeCommand 0x7FFFFFFFFFFFFFFF802 = .sync 0xFFFFFFFFFFFFFFFF ∧
    decodeCommand 0x0000000000000000003 = .emitFactoryReset ∧
    decodeCommand 0x0000000000000000004 = .emitMapRequest ∧
    decodeCommand 0x000000000000000002D = .lookup 5 ∧
    decodeCommand 0x000000000000000004D = .lookup 9 ∧
    decodeCommand 0x0000000000000000325 = .lookup 100 ∧
    decodeCommand 0x0000000000000000006 = .reset ∧
    decodeCommand 0x0000000000000000007 = .reserved

/-- R60 to R65, R71: decoding the encoding of a well-formed instruction gives it back, for every instruction. -/
def Obligations.DecodeOfEncodeIsTheInstruction : Prop :=
  ∀ i : Instr, WellFormed i = true → decode (encode i) = .ok i

/-- R60, R61: a byte sequence that decodes as a frame is the encoding of the well-formed instruction it decodes to, so
that no byte of it is dropped and no two sequences share a meaning. -/
def Obligations.DecodedFrameEncodesBack : Prop :=
  ∀ (bytes : List Byte) (i : Instr), decodeFrame bytes = .ok i →
    WellFormed i = true ∧ encode i = .wire bytes

/-- R79: the pseudo-instructions stand for the commands of their expansions: FRAME for the FEEDs of its frame, SYNC_ON
for the vector with exactly the listed bits, SYNC_ALL_ON and SYNC_ALL_OFF for the full and the empty vector. -/
def Obligations.PseudoInstructionsExpandAsListed : Prop :=
  (∀ bytes, (lineWords (.feeds bytes)).map decodeCommand = bytes.map .feed) ∧
    (∀ op p, (lineWords (.frame op p)).map decodeCommand =
      ([240, 0, 1, 97, 2, op] ++ p ++ [247]).map .feed) ∧
    (∀ ids : List ButtonId, ∃ states, (lineWords (.syncOn ids)).map decodeCommand = [.sync states] ∧
      ∀ j : ButtonId, states.getLsbD j.val = true ↔ j ∈ ids) ∧
    (lineWords .syncAllOn).map decodeCommand = [.sync 0xFFFFFFFFFFFFFFFF] ∧
    (lineWords .syncAllOff).map decodeCommand = [.sync 0x0000000000000000]

/-! ### The machine as a whole -/

/-- A step runs the decoded instruction: a command word's, or a wire frame's; wire bytes that are no frame are fed one
at a time (log entry 5). R50, R70, R79. -/
def Obligations.StepRunsTheDecodedInstruction : Prop :=
  ∀ (s : State) (rest : List Request),
    (∀ w, s.inbox = .command w :: rest → step s = exec (decodeCommand w) { s with inbox := rest }) ∧
    (∀ bytes i, s.inbox = .wire bytes :: rest → decodeFrame bytes = .ok i →
      step s = exec i { s with inbox := rest }) ∧
    (∀ b c more e, s.inbox = .wire (b :: c :: more) :: rest →
      decodeFrame (b :: c :: more) = .error e →
      step s = exec (.feed b) { s with inbox := .wire (c :: more) :: rest }) ∧
    ∀ b, s.inbox = .wire [b] :: rest → step s = exec (.feed b) { s with inbox := rest }

/-- The model's choice of log entry 3: a step with nothing issued waits and changes nothing. -/
def Obligations.BlockWaitsWhereNothingIsIssued : Prop :=
  ∀ s : State, s.inbox = [] → step s = .next s

/-- R70, R250 and 93_implementation_defined.md Part 1 ("the block never stops"): every instruction, in every state,
answers a next state; a command gives one response; and neither what was answered before nor what the host has still
issued is touched. That a wire frame is one instruction, with a response for each of its bytes, is the model's form of the
FEEDS of R79 (log entry 4, DESIGN CHOICE). That every step answers a next state, with nothing issued too, rests there on
the model's waiting step (log entry 3). -/
def Obligations.EveryInstructionCompletesWithItsResponses : Prop :=
  (∀ (i : Instr) (s : State), ∃ t rs, exec i s = .next t ∧ t.inbox = s.inbox ∧
    t.outbox = s.outbox ++ rs ∧
    rs.length = match encode i with | .command _ => 1 | .wire bytes => bytes.length) ∧
  ∀ s : State, ∃ t, step s = .next t

/-- R49 for NOP, SYNC, the two fixed-frame commands and LOOKUP, and R182 (42_control.md) for the reserved command: each
changes no block state, and gives the same response when repeated. -/
def Obligations.PureCommandsChangeNoBlockState : Prop :=
  ∀ (i : Instr) (s : State),
    (i = .nop ∨ (∃ states, i = .sync states) ∨ i = .emitFactoryReset ∨ i = .emitMapRequest ∨
      (∃ n, i = .lookup n) ∨ i = .reserved) →
    ∃ r, exec i s = .next { s with outbox := s.outbox ++ [r] } ∧
      exec i { s with outbox := s.outbox ++ [r] } = .next { s with outbox := s.outbox ++ [r] ++ [r] }

/-- R29: INV1 to INV4 hold after reset, and so does the map's (no map, so nothing to check). -/
def Obligations.InvariantHoldsAtReset : Prop := State.reset.Inv

/-- R29, R28: every step keeps INV1 to INV4, and that a written map holds no marker. -/
def Obligations.EveryStepKeepsTheInvariant : Prop :=
  ∀ s t : State, s.Inv → step s = .next t → t.Inv

/-- R48, R111 and INV5 of R29: a well-formed instruction leaves the map as it is, or forgets it, or replaces all 64 entries from
the one 128-byte payload that its last response reports as MAP_UPDATED. -/
def Obligations.MapChangesOnlyAsAWhole : Prop :=
  ∀ (i : Instr) (s t : State), WellFormed i = true → exec i s = .next t →
    (t.block.mapValid = s.block.mapValid ∧ t.block.mapNote = s.block.mapNote) ∨
    (i = .reset ∧ t.block.mapValid = false) ∨
    ∃ p : List Byte, p.length = 128 ∧ t.block.mapValid = true ∧
      (∀ j : Fin 64, p[2 * j.val]? = some t.block.mapNote[j.val]) ∧
      t.outbox.getLast? =
        some { Response.ok with rxEvt := some { op := 11, payload := p, mst := 1 } }

/-- R200, R207, R76 with U11 and U12 of 93_implementation_defined.md: from a state that meets the invariant, every
response of a step is legal: listed codes only, payloads and frames of the lengths R76 gives, no event beside
INVALID_FRAME, no error beside an emitted frame. -/
def Obligations.EveryResponseIsLegal : Prop :=
  ∀ s t : State, s.Inv → step s = .next t →
    ∃ rs, t.outbox = s.outbox ++ rs ∧ ∀ r ∈ rs, r.Legal

/-- R230: the host cannot tell what map_note holds before a map is established. Two machines that agree on all else,
given the same stream, give the same responses, and go on agreeing. -/
def Obligations.UnestablishedMapCannotBeObserved : Prop :=
  ∀ a b a' b' : State, a.block.SameToHost b.block → a.inbox = b.inbox → a.outbox = b.outbox →
    step a = .next a' → step b = .next b' →
    a'.block.SameToHost b'.block ∧ a'.inbox = b'.inbox ∧ a'.outbox = b'.outbox
end

