-- ==== Sys2Proof/Laws/Exec.lean ====
section
/-! SUPPORT. What `exec` can do, said once for every instruction: a command that leaves the block alone, a FEED, a RESET,
or a wire frame whose bytes are fed. -/

namespace Sys2Proof.Machine

open Config

/-- The response of each command that changes no block state (20_memory.md R49), and of no other. -/
def pureResponse : Instr → Block → Option Response
  | .nop, _ => some Response.ok
  | .feed _, _ => none
  | .sync states, _ => some (Response.ok.emitTx (syncFrameOf mask states))
  | .emitFactoryReset, _ => some (Response.ok.emitTx (frameBytes opFactoryReset []))
  | .emitMapRequest, _ => some (Response.ok.emitTx (frameBytes opRequest [opMap]))
  | .lookup n, k => some (lookupNote n k)
  | .reset, _ => none
  | .reserved, _ => some (Response.ok.raise .illegalCommand)
  | .syncFrame _, _ => none
  | .factoryResetFrame, _ => none
  | .mapRequestFrame, _ => none
  | .mapResponseFrame _, _ => none
  | .otherValidFrame _ _, _ => none

/-- A command with a pure response gives it and changes nothing else. -/
theorem exec_of_pureResponse {i : Instr} {s : State} {r : Response}
    (h : pureResponse i s.block = some r) : exec i s = s.answer s.block [r] := by
  cases i <;> simp only [pureResponse, Option.some.injEq, reduceCtorEq] at h <;> subst h <;> rfl

/-- What `exec` can do. -/
theorem exec_cases {i : Instr} {s t : State} (h : exec i s = .next t) :
    (∃ r, pureResponse i s.block = some r ∧ t = { s with outbox := s.outbox ++ [r] }) ∨
      (∃ b, i = .feed b ∧
        t = { s with
              block := (feedByte maxFrame b s.block).1
              outbox := s.outbox ++ [(feedByte maxFrame b s.block).2] }) ∨
      (i = .reset ∧
        t = { s with
              block := Block.initial (drawnNotes s.draws)
              draws := s.draws + 1
              outbox := s.outbox ++ [Response.ok] }) ∨
      ∃ bytes, encode i = .wire bytes ∧
        t = { s with
              block := (feedBytes maxFrame bytes s.block).1
              outbox := s.outbox ++ (feedBytes maxFrame bytes s.block).2 } := by
  have frame {bytes : List Byte} (he : encode i = .wire bytes) :
      t = { s with
            block := (feedBytes maxFrame bytes s.block).1
            outbox := s.outbox ++ (feedBytes maxFrame bytes s.block).2 } :=
    State.receive_next_iff.1 (exec_frame s he ▸ h)
  have pure_ {r : Response} (hr : pureResponse i s.block = some r) :
      t = { s with outbox := s.outbox ++ [r] } :=
    State.answer_next_iff.1 (exec_of_pureResponse hr ▸ h)
  cases hi : i with
  | feed b => subst hi; exact .inr (.inl ⟨b, rfl, State.answer_next_iff.1 h⟩)
  | reset => subst hi; exact .inr (.inr (.inl ⟨rfl, State.answer_next_iff.1 h⟩))
  | nop => exact .inl ⟨_, rfl, pure_ (by rw [hi]; rfl)⟩
  | sync => exact .inl ⟨_, rfl, pure_ (by rw [hi]; rfl)⟩
  | emitFactoryReset => exact .inl ⟨_, rfl, pure_ (by rw [hi]; rfl)⟩
  | emitMapRequest => exact .inl ⟨_, rfl, pure_ (by rw [hi]; rfl)⟩
  | lookup => exact .inl ⟨_, rfl, pure_ (by rw [hi]; rfl)⟩
  | reserved => exact .inl ⟨_, rfl, pure_ (by rw [hi]; rfl)⟩
  | syncFrame => exact .inr (.inr (.inr ⟨_, rfl, frame (by rw [hi]; rfl)⟩))
  | factoryResetFrame => exact .inr (.inr (.inr ⟨_, rfl, frame (by rw [hi]; rfl)⟩))
  | mapRequestFrame => exact .inr (.inr (.inr ⟨_, rfl, frame (by rw [hi]; rfl)⟩))
  | mapResponseFrame => exact .inr (.inr (.inr ⟨_, rfl, frame (by rw [hi]; rfl)⟩))
  | otherValidFrame => exact .inr (.inr (.inr ⟨_, rfl, frame (by rw [hi]; rfl)⟩))

end Sys2Proof.Machine
end

