-- ==== Sys2Proof/Laws/PerInstr.lean ====
section
/-! SUPPORT. Statements made for every instruction, one lemma per constructor of Instr. -/

namespace Sys2Proof.Laws.MatchesRow

/-- The encoding of an instruction carries the bits that its row of spec/opcode_table.json fixes: the OP of a command
word (30_encoding.md R73), or the first six bytes and the end marker of a frame (R60), where OTHER_VALID_FRAME fixes
five. -/
def Statement : Instr → Prop
  | .nop => ∃ w, encode .nop = .command w ∧ cmdOp w = 0
  | .feed b => ∃ w, encode (.feed b) = .command w ∧ cmdOp w = 1
  | .sync states => ∃ w, encode (.sync states) = .command w ∧ cmdOp w = 2
  | .emitFactoryReset => ∃ w, encode .emitFactoryReset = .command w ∧ cmdOp w = 3
  | .emitMapRequest => ∃ w, encode .emitMapRequest = .command w ∧ cmdOp w = 4
  | .lookup note => ∃ w, encode (.lookup note) = .command w ∧ cmdOp w = 5
  | .reset => ∃ w, encode .reset = .command w ∧ cmdOp w = 6
  | .reserved => ∃ w, encode .reserved = .command w ∧ cmdOp w = 7
  | .syncFrame cols => ∃ p, encode (.syncFrame cols) = .wire ([240, 0, 1, 97, 2, 4] ++ p ++ [247])
  | .factoryResetFrame => encode .factoryResetFrame = .wire [240, 0, 1, 97, 2, 6, 247]
  | .mapRequestFrame => encode .mapRequestFrame = .wire [240, 0, 1, 97, 2, 7, 11, 247]
  | .mapResponseFrame p =>
    encode (.mapResponseFrame p) = .wire ([240, 0, 1, 97, 2, 11] ++ p ++ [247])
  | .otherValidFrame op p =>
    encode (.otherValidFrame op p) = .wire ([240, 0, 1, 97, 2] ++ [op] ++ p ++ [247])

/-- OP is read back from a packed command word. -/
theorem cmdOp_packCmd (s : Buttons) (b : Byte) (op : BitVec 3) : cmdOp (packCmd s b op) = op := by
  ext i hi
  have h3 : decide (i < 3) = true := decide_eq_true hi
  have h11 : decide (i < 11) = true := decide_eq_true (by omega)
  have h75 : decide (i < 75) = true := decide_eq_true (by omega)
  simp [cmdOp, packCmd, h3, h11, h75, BitVec.getLsbD_eq_getElem hi]

theorem nop : Statement .nop := ⟨_, rfl, cmdOp_packCmd ..⟩
theorem feed (b : Byte) : Statement (.feed b) := ⟨_, rfl, cmdOp_packCmd ..⟩
theorem sync (states : Buttons) : Statement (.sync states) := ⟨_, rfl, cmdOp_packCmd ..⟩
theorem emitFactoryReset : Statement .emitFactoryReset := ⟨_, rfl, cmdOp_packCmd ..⟩
theorem emitMapRequest : Statement .emitMapRequest := ⟨_, rfl, cmdOp_packCmd ..⟩
theorem lookup (note : Byte) : Statement (.lookup note) := ⟨_, rfl, cmdOp_packCmd ..⟩
theorem reset : Statement .reset := ⟨_, rfl, cmdOp_packCmd ..⟩
theorem reserved : Statement .reserved := ⟨_, rfl, cmdOp_packCmd ..⟩
theorem syncFrame (cols : Vector (BitVec 7) 12) : Statement (.syncFrame cols) := ⟨_, rfl⟩
theorem factoryResetFrame : Statement .factoryResetFrame := rfl
theorem mapRequestFrame : Statement .mapRequestFrame := rfl
theorem mapResponseFrame (p : List Byte) : Statement (.mapResponseFrame p) := rfl
theorem otherValidFrame (op : Byte) (p : List Byte) : Statement (.otherValidFrame op p) := rfl

end Sys2Proof.Laws.MatchesRow
end

