-- ==== Sys2Proof/Tests/Slice0.lean ====
section
/-! SUPPORT. Tests: what the checks refuse, words and frames written out from the spec's encodings, the vectors of
spec/95_test_vectors.md for one step each, and for every statement with hypotheses a case that meets them. -/

namespace Sys2Proof.Tests

open Machine Config

/-! ### Helpers -/

/-- A block with no frame open and no map. -/
def idleBlock : Block := Block.initial (Vector.replicate 64 0)

/-- A block with an open frame. -/
def accBlock (buf : List Byte) : Block := { idleBlock with rxMode := .acc, rxBuf := buf }

/-- A block with a map that holds the same note in every entry. -/
def mapBlock (n : Byte) : Block :=
  { idleBlock with mapValid := true, mapNote := Vector.replicate 64 n }

/-- A machine with a block and nothing issued. -/
def onBlock (k : Block) : State := { State.reset with block := k }

/-- A machine to which the host has issued requests. -/
def issued (rs : List Request) : State := { State.reset with inbox := rs }

/-- MASK_T, the illustrative table of 95_test_vectors.md (not the device's). -/
def maskT : Mask := fun c k =>
  if h : c * 14 + k < 64 then some ⟨c * 14 + k, h⟩ else none

/-- A frame whose buffer is full: 240 and MAX_FRAME - 2 zeros. -/
def fullBuffer : List Byte := sox :: List.replicate (maxFrame - 2) 0

/-- A payload of 64 pairs, all with note 5. -/
def pairs5 : List Byte := (List.replicate 64 [5, 0]).flatten

theorem maxFrame_ge : 135 ≤ maxFrame := by simp [maxFrame]

/-! ### WellFormed: one ill-formed term for each check -/

theorem wellFormed_refuses_marker_operation : WellFormed (.otherValidFrame 240 []) = false := by decide
theorem wellFormed_refuses_end_operation : WellFormed (.otherValidFrame 247 []) = false := by decide
theorem wellFormed_refuses_marker_in_payload : WellFormed (.mapResponseFrame [5, 247]) = false := by
  decide
theorem wellFormed_refuses_start_in_payload : WellFormed (.otherValidFrame 1 [240]) = false := by
  decide
theorem wellFormed_refuses_long_frame :
    WellFormed (.mapResponseFrame (List.replicate maxFrame 0)) = false := by
  simp [WellFormed, wellFramed]
theorem wellFormed_refuses_map_row : WellFormed (.otherValidFrame 11 []) = false := by decide
theorem wellFormed_refuses_sync_row : WellFormed (.otherValidFrame 4 (List.replicate 12 127)) = false := by
  decide
theorem wellFormed_refuses_factory_row : WellFormed (.otherValidFrame 6 []) = false := by decide
theorem wellFormed_refuses_request_row : WellFormed (.otherValidFrame 7 [11]) = false := by decide
theorem wellFormed_takes_neighbours :
    WellFormed (.otherValidFrame 4 (List.replicate 12 128)) = true ∧
      WellFormed (.otherValidFrame 4 (List.replicate 11 127)) = true ∧
      WellFormed (.otherValidFrame 6 [0]) = true ∧ WellFormed (.otherValidFrame 7 []) = true := by
  decide

/-! ### Decoding: words and frames written out from 30_encoding.md R60 to R80 -/

theorem decode_nop_word : decodeCommand 0b000#75 = .nop := by decide
theorem decode_feed_word : decodeCommand (0b11110000001#75) = .feed 240 := by decide
theorem decode_sync_word : decodeCommand 0x7FFFFFFFFFFFFFFF002#75 = .sync 0xFFFFFFFFFFFFFFFE := by
  decide
theorem decode_factory_word : decodeCommand 0b011#75 = .emitFactoryReset := by decide
theorem decode_request_word : decodeCommand 0b100#75 = .emitMapRequest := by decide
theorem decode_lookup_word : decodeCommand (0b01100100101#75) = .lookup 100 := by decide
theorem decode_reset_word : decodeCommand 0b110#75 = .reset := by decide
/-- V-CT-04: OP = 7 with every operand bit set. -/
theorem decode_reserved_word : decodeCommand 0x7FFFFFFFFFFFFFFFFFF#75 = .reserved := by decide
theorem encode_feed_word : encode (.feed 240) = .command 0x781#75 := by decide
theorem encode_sync_word :
    encode (.sync 0xFFFFFFFFFFFFFFFF) = .command 0x7FFFFFFFFFFFFFFF802#75 := by decide
theorem encode_lookup_word : encode (.lookup 9) = .command 0x4D#75 := by decide

theorem decode_sync_frame :
    decodeFrame [240, 0, 1, 97, 2, 4, 126, 127, 127, 127, 127, 127, 127, 127, 127, 1, 0, 0, 247] =
      .ok (.syncFrame #v[126, 127, 127, 127, 127, 127, 127, 127, 127, 1, 0, 0]) := by decide
theorem decode_factory_frame : decodeFrame [240, 0, 1, 97, 2, 6, 247] = .ok .factoryResetFrame := by
  decide
theorem decode_request_frame : decodeFrame [240, 0, 1, 97, 2, 7, 11, 247] = .ok .mapRequestFrame := by
  decide
theorem decode_short_map_frame :
    decodeFrame [240, 0, 1, 97, 2, 11, 5, 0, 247] = .ok (.mapResponseFrame [5, 0]) := by decide
theorem decode_other_frame :
    decodeFrame [240, 0, 1, 97, 2, 255, 1, 2, 247] = .ok (.otherValidFrame 255 [1, 2]) := by decide
theorem decodeFrame_names_its_refusals :
    decodeFrame [240, 0, 1, 97, 2, 247] = .error .short ∧
      decodeFrame [241, 0, 1, 97, 2, 6, 247] = .error .start ∧
      decodeFrame [240, 0, 2, 97, 2, 6, 247] = .error .header ∧
      decodeFrame [240, 0, 1, 97, 3, 6, 247] = .error .device ∧
      decodeFrame [240, 0, 1, 97, 2, 6, 246] = .error .noEndMarker ∧
      decodeFrame [240, 0, 1, 97, 2, 6, 247, 247] = .error .markerInside := by decide

/-- Each row's match word of spec/opcode_table.json gives its row's instruction. -/
theorem decodeTableWord_rows :
    decodeTableWord 8 0 = some .nop ∧ decodeTableWord 8 1 = some (.feed 0) ∧
      decodeTableWord 8 2 = some (.sync 0) ∧ decodeTableWord 8 3 = some .emitFactoryReset ∧
      decodeTableWord 8 4 = some .emitMapRequest ∧ decodeTableWord 8 5 = some (.lookup 0) ∧
      decodeTableWord 8 6 = some .reset ∧ decodeTableWord 8 7 = some .reserved ∧
      decodeTableWord 48 0xF00001610206 = some .factoryResetFrame ∧
      decodeTableWord 48 0xF00001610207 = some .mapRequestFrame ∧
      decodeTableWord 48 0xF00001610200 = some (.otherValidFrame 0 []) := by decide
theorem decodeTableWord_sync_row :
    decodeTableWord 48 0xF00001610204 = some (.syncFrame (Vector.replicate 12 0)) := by decide
theorem decodeTableWord_map_row :
    decodeTableWord 48 0xF0000161020B = some (.mapResponseFrame (List.replicate 128 0)) := by
  decide +kernel

/-! ### One step each: vectors of 95_test_vectors.md -/

/-- V-RX-02. -/
theorem feed_reports_header :
    (feedByte 135 247 (accBlock [240, 0, 2, 97, 2, 6])).2 =
      { Response.ok with status := 1, info := 4 } := by decide
/-- V-RX-13. -/
theorem feed_returns_frame :
    (feedByte 135 247 (accBlock [240, 0, 1, 97, 2, 255, 1, 2])).2.rxEvt =
      some { op := 255, payload := [1, 2], mst := 0 } := by decide
/-- V-LK-02, and R110's greatest id. -/
theorem lookup_gives_greatest_id : (lookupNote 5 (mapBlock 5)).lk = some 63 := by decide
theorem lookup_of_absent_note :
    lookupNote 6 (mapBlock 5) = { Response.ok with status := 3, info := 2 } := by decide
/-- V-TX-05: slot 7 is bit 0 of HH_0. -/
theorem sync_resets_exponent_after_slot_6 :
    syncFrameOf maskT 0x80 =
      [240, 0, 1, 97, 2, 4, 127, 126, 127, 127, 127, 127, 127, 127, 127, 1, 0, 0, 247] := by decide
/-- V-TX-08: even ids ON. -/
theorem sync_packs_alternating_states :
    syncFrameOf maskT 0x5555555555555555 =
      [240, 0, 1, 97, 2, 4, 42, 85, 42, 85, 42, 85, 42, 85, 42, 1, 0, 0, 247] := by decide
/-- V-RX-23: RESET drops the open frame. -/
theorem reset_drops_open_frame :
    ∃ t, exec .reset (onBlock (accBlock [240, 0, 1])) = .next t ∧ t.block.rxMode = .idle ∧
      t.block.rxBuf = [] := ⟨_, rfl, rfl, rfl⟩
/-- V-RX-24: NOP does not disturb a frame. -/
theorem nop_keeps_open_frame :
    ∃ t, exec .nop (onBlock (accBlock [240, 0, 1])) = .next t ∧ t.block.rxBuf = [240, 0, 1] :=
  ⟨_, rfl, rfl⟩
/-- V-TX-10. -/
theorem factory_reset_keeps_open_frame :
    ∃ t, exec .emitFactoryReset (onBlock (accBlock [240, 0, 1])) = .next t ∧
      t.block.rxBuf = [240, 0, 1] ∧
      t.outbox = [{ Response.ok with txFrame := some [240, 0, 1, 97, 2, 6, 247] }] :=
  ⟨_, rfl, rfl, rfl⟩
/-- V-RX-10, as one wire frame. -/
theorem map_request_frame_returned :
    (feedBytes 135 [240, 0, 1, 97, 2, 7, 11, 247] idleBlock).2.getLast? =
      some { Response.ok with rxEvt := some { op := 7, payload := [11], mst := 0 } } := by decide

/-- A program text of R78 and R79. -/
theorem readProgram_reads_lines :
    readProgram "FEED 0xF0 ; start\nSYNC_ON 1, 2\n\n.word 0x7\nFRAME 6".toList =
      some [.feed 240, .syncOn [1, 2], .word 7, .frame 6 []] := by decide
/-- The choices of log entry 15. -/
theorem readProgram_number_forms :
    readProgram ".word 10\nSYNC_ON\nSYNC_ON 0x10, 10".toList =
      some [.word 10, .syncOn [], .syncOn [16, 10]] := by decide
theorem readProgram_refuses_large_byte : readProgram "FEED 256".toList = none := by decide

/-! ### Cases that meet the hypotheses of the statements -/

theorem maskT_wf2 : maskT.Wf2 := by
  refine ⟨by decide, fun c k hc hk h => ?_⟩
  unfold maskT at h
  split at h
  · have := congrArg Fin.val (Option.some.inj h)
    simp only [Fin.val_zero] at this
    omega
  · cases h

theorem maskT_injective : maskT.Injective := by
  intro c k c' k' id hc hk hc' hk' h h'
  simp only [nCols, nSlots] at hc hk hc' hk'
  unfold maskT at h h'
  split at h
  · split at h'
    · have := congrArg Fin.val (Option.some.inj (h.trans h'.symm))
      simp only at this
      omega
    · cases h'
  · cases h

/-- FlippingButton0FlipsBit0OfByte6. -/
theorem wf2_case : maskT.Wf2 := maskT_wf2

/-- FlippingAButtonFlipsItsOneSlotBit, where no slot holds the button: the table of NULLs. -/
theorem unmapped_button_case :
    Mask.Injective (fun _ _ => none) ∧
      ∀ c k, c < 6 → k < 14 → (fun _ _ => none : Mask) c k ≠ some 63 :=
  ⟨(by intro c k c' k' id _ _ _ _ h; cases h), (by intro c k _ _ h; cases h)⟩

/-- FlippingAButtonFlipsItsOneSlotBit, at the first and last slots of the halves. -/
theorem mapped_button_case :
    maskT.Injective ∧ maskT 0 0 = some 0 ∧ maskT 0 6 = some 6 ∧ maskT 0 7 = some 7 ∧
      maskT 3 13 = some 55 ∧ maskT 4 7 = some 63 := ⟨maskT_injective, by decide⟩

/-- FeedFramesTheByteStream, clauses 2 and 3: an idle block, and the bytes beside the markers. -/
theorem idle_feed_case :
    idleBlock.rxMode = .idle ∧ (239 : Byte) ≠ 240#8 ∧ (239 : Byte) ≠ 247#8 ∧
      (248 : Byte) ≠ 240#8 ∧ (248 : Byte) ≠ 247#8 := by decide

/-- FeedFramesTheByteStream, clause 4: room for exactly one more byte. -/
theorem last_room_case :
    (accBlock (sox :: List.replicate (maxFrame - 3) 0)).rxMode = .acc ∧
      (accBlock (sox :: List.replicate (maxFrame - 3) 0)).rxBuf.length < maxFrame - 1 ∧
      (0 : Byte) ≠ 240#8 ∧ (0 : Byte) ≠ 247#8 := by
  have := maxFrame_ge
  refine ⟨rfl, ?_, by decide, by decide⟩
  simp only [accBlock, List.length_cons, List.length_replicate]
  omega

/-- FeedFramesTheByteStream, clause 5: the buffer just full. -/
theorem full_buffer_case :
    (accBlock fullBuffer).rxMode = .acc ∧ maxFrame - 1 ≤ (accBlock fullBuffer).rxBuf.length := by
  have := maxFrame_ge
  refine ⟨rfl, ?_⟩
  simp only [accBlock, fullBuffer, List.length_cons, List.length_replicate]
  omega

/-- EndMarkerClosesTheFrameWhateverItHolds. -/
theorem open_frame_case : (onBlock (accBlock [240])).block.rxMode = .acc := rfl

/-- ValidFrameOfAnotherOperationIsReturned, with an empty payload. -/
theorem valid_frame_case :
    (accBlock [240, 0, 1, 97, 2, 6]).rxMode = .acc ∧
      (accBlock [240, 0, 1, 97, 2, 6]).rxOvf = false ∧
      (accBlock [240, 0, 1, 97, 2, 6]).rxBuf = [240, 0, 1, 97, 2, 6] ++ ([] : List Byte) ∧
      (6 : Byte) ≠ 11 := by decide

/-- MapFrameReplacesTheWholeMapOrNothing: payloads of 128, 127 and 0 bytes. -/
theorem map_frame_case :
    (accBlock ([240, 0, 1, 97, 2, 11] ++ pairs5)).rxMode = .acc ∧
      (accBlock ([240, 0, 1, 97, 2, 11] ++ pairs5)).rxOvf = false ∧ pairs5.length = 128 ∧
      (pairs5.drop 1).length = 127 ∧ ([] : List Byte).length ≠ 128 :=
  ⟨rfl, rfl, by decide +kernel, by decide +kernel, by decide⟩

/-- InvalidFrameReportsItsReason, clause 1: an overflowed frame. -/
theorem overflow_reason_case :
    ({ accBlock fullBuffer with rxOvf := true } : Block).rxOvf = true ∧
      ({ accBlock fullBuffer with rxOvf := true } : Block).rxBuf.head? = some 240#8 := ⟨rfl, rfl⟩

/-- InvalidFrameReportsItsReason, clauses 2 to 4: 5 and 6 bytes before the end marker. -/
theorem frame_reason_cases :
    (accBlock [240, 0, 1, 97, 2]).rxBuf.length < 6 ∧
      6 ≤ (accBlock [240, 0, 2, 97, 2, 6]).rxBuf.length ∧
      ((accBlock [240, 0, 2, 97, 2, 6]).rxBuf.drop 1).take 3 ≠ [0, 1, 97] ∧
      ((accBlock [240, 0, 1, 97, 3, 6]).rxBuf.drop 1).take 3 = [0, 1, 97] ∧
      (accBlock [240, 0, 1, 97, 3, 6]).rxBuf[4]? ≠ some 2 := by decide

/-- The statements with the invariant as a premise: a block with an open frame and an established map. -/
theorem inv_case : (onBlock { accBlock [240, 5] with mapValid := true }).Inv := by
  have := maxFrame_ge
  refine ⟨⟨(by intro h; cases h), fun _ => ⟨rfl, by decide⟩, ?_, (by intro h; cases h)⟩, fun _ => by decide⟩
  simp only [onBlock, accBlock, List.length_cons, List.length_nil]
  omega

/-- EveryStepKeepsTheInvariant and EveryResponseIsLegal: a step that answers from such a state. -/
theorem inv_step_case : ∃ t, step (onBlock { accBlock [240, 5] with mapValid := true }) = .next t :=
  ⟨_, rfl⟩

/-- OverflowExactlyWhenTheFrameIsTooLong: a body that just fits, and one that just does not. -/
theorem overflow_bodies_case :
    (∀ b ∈ List.replicate (maxFrame - 2) (1 : Byte), b ≠ 240#8 ∧ b ≠ 247#8) ∧
      ¬ maxFrame < (List.replicate (maxFrame - 2) (1 : Byte)).length + 2 ∧
      maxFrame < (List.replicate (maxFrame - 1) (1 : Byte)).length + 2 := by
  have := maxFrame_ge
  refine ⟨fun b hb => ?_, ?_, ?_⟩
  · obtain ⟨_, rfl⟩ := List.mem_replicate.1 hb
    decide
  · simp only [List.length_replicate]
    omega
  · simp only [List.length_replicate]
    omega

/-- PlainBufferDecoderTellsTheSame. -/
theorem idle_block_case : idleBlock.rxMode = .idle := rfl

/-- LookupAnswersTheGreatestId: no map; a map without the note; ids 63 and 0. -/
theorem lookup_cases :
    idleBlock.mapValid = false ∧
      ((mapBlock 5).mapValid = true ∧ ∀ i : Fin 64, (mapBlock 5).mapNote[i.val] ≠ 6) ∧
      ((mapBlock 5).mapNote[(63 : Fin 64).val] = 5 ∧
        ∀ j : Fin 64, 63 < j → (mapBlock 5).mapNote[j.val] ≠ 5) ∧
      let one : Block := { mapBlock 5 with mapNote := (mapBlock 5).mapNote.set 0 9 }
      one.mapNote[(0 : Fin 64).val] = 9 ∧ ∀ j : Fin 64, 0 < j → one.mapNote[j.val] ≠ 9 := by
  decide +kernel

/-- ReceivedFrameIsReturnedAndChangesNoMap: the shortest frame and the longest. -/
theorem other_frame_cases :
    WellFormed (.otherValidFrame 0 []) = true ∧
      WellFormed (.otherValidFrame 0 (List.replicate (maxFrame - 7) 1)) = true := by
  have := maxFrame_ge
  refine ⟨by decide, ?_⟩
  have hp : plainByte 1#8 = true ∧ plainByte 0#8 = true := by decide
  have h0 : (0#8 == opMap) = false ∧ (0#8 == opSync) = false ∧ (0#8 == opFactoryReset) = false ∧
      (0#8 == opRequest) = false := by decide
  have hl : maxFrame - 7 + 7 ≤ maxFrame := by omega
  simp [WellFormed, wellFramed, hasOwnRow, hp, h0, hl]

/-- ReceivedMapResponseReplacesTheMap: payloads of 128 and of 127 bytes. -/
theorem map_response_cases :
    WellFormed (.mapResponseFrame pairs5) = true ∧ pairs5.length = 128 ∧
      WellFormed (.mapResponseFrame (pairs5.drop 1)) = true ∧ (pairs5.drop 1).length ≠ 128 := by
  decide +kernel

/-- LookupAnswersFromTheLastMapFrame: a note absent, and the greatest id 63 and a lone id 0. -/
theorem map_answer_cases :
    (∀ i < 64, pairs5[2 * i]? ≠ some 6) ∧ pairs5[2 * 63]? = some 5 ∧
      (pairs5.set 0 9)[2 * 0]? = some 9 ∧ (∀ j < 64, 0 < j → (pairs5.set 0 9)[2 * j]? ≠ some 9) ∧
      WellFormed (.mapResponseFrame (pairs5.set 0 9)) = true := by
  decide +kernel

/-- WireFrameEqualsItsFeeds. -/
theorem wire_encoding_case : encode .factoryResetFrame = .wire [240, 0, 1, 97, 2, 6, 247] := rfl

/-- DecodeOfEncodeIsTheInstruction: a well-formed instruction of each level. -/
theorem well_formed_cases :
    WellFormed (.feed 255) = true ∧ WellFormed (.syncFrame (Vector.replicate 12 127)) = true ∧
      WellFormed (.otherValidFrame 255 [1, 2]) = true := by decide

/-- DecodedFrameEncodesBack. -/
theorem decoded_frame_case :
    decodeFrame [240, 0, 1, 97, 2, 0, 247] = .ok (.otherValidFrame 0 []) := by decide

/-- UnreadOperandFieldsAreIgnored: two NOP words, two FEED words and two SYNC words that differ in an unread field. -/
theorem unread_field_cases :
    cmdOp (packCmd 1 2 0) = cmdOp (packCmd 3 4 0) ∧
      (cmdOp (packCmd 1 2 1) = cmdOp (packCmd 3 2 1) ∧ cmdB (packCmd 1 2 1) = cmdB (packCmd 3 2 1)) ∧
      cmdOp (packCmd 1 2 2) = cmdOp (packCmd 1 4 2) ∧ cmdS (packCmd 1 2 2) = cmdS (packCmd 1 4 2) := by
  decide

/-- StepRunsTheDecodedInstruction: a command, a wire frame, bytes that are none, and a lone byte. -/
theorem step_cases :
    (issued [.command 0]).inbox = .command 0 :: [] ∧
      decodeFrame [240, 0, 1, 97, 2, 6, 247] = .ok .factoryResetFrame ∧
      decodeFrame [1, 2] = .error .short ∧ (issued [.wire [1]]).inbox = .wire [1] :: [] := by decide

/-- BlockWaitsWhereNothingIsIssued. -/
theorem nothing_issued_case : State.reset.inbox = [] := rfl

/-- PureCommandsChangeNoBlockState: every one of the commands it names is of the listed form. -/
theorem pure_command_case : ∃ n, (Instr.lookup 5) = .lookup n := ⟨5, rfl⟩

/-- MapChangesOnlyAsAWhole: an answer of each of its three kinds. -/
theorem map_change_cases :
    (∃ t, exec .nop State.reset = .next t) ∧ (∃ t, exec .reset State.reset = .next t) ∧
      WellFormed (.mapResponseFrame pairs5) = true ∧
      ∃ t, exec (.mapResponseFrame pairs5) State.reset = .next t :=
  ⟨⟨_, rfl⟩, ⟨_, rfl⟩, map_response_cases.1, ⟨_, State.receive_next_iff.2 rfl⟩⟩

/-- UnestablishedMapCannotBeObserved: two machines whose map_note differ, with a LOOKUP issued to both. -/
theorem unestablished_map_case :
    idleBlock.SameToHost (Block.initial (Vector.replicate 64 5)) ∧
      idleBlock ≠ Block.initial (Vector.replicate 64 5) ∧
      (∃ t, step (issued [encode (.lookup 5)]) = .next t) ∧
      ∃ t, step { issued [encode (.lookup 5)] with
        block := Block.initial (Vector.replicate 64 5) } = .next t := by
  refine ⟨⟨rfl, rfl, rfl, rfl, (by intro h; cases h)⟩, ?_, ⟨_, rfl⟩, ⟨_, rfl⟩⟩
  intro h
  have := congrArg (fun k => k.noteAt 0) h
  revert this
  decide

end Sys2Proof.Tests
end

section
/-! PROOFS. The conditions on the parameters (spec/10_state.md R31, R32) and the invariant of the block (R28, R29):
the reset block meets it, and every byte fed keeps it, hence every instruction and every step. -/

namespace Sys2Proof

open Config

/-! ### The parameters -/

/-- The one cell of MASK that the spec gives (10_state.md R31). -/
@[simp] theorem Config.mask_zero_zero : mask 0 0 = some 0 := by simp [mask]

/-- No other cell of MASK holds 0: `mask` replaces an open 0 by NULL (log entry 8). -/
theorem Config.eq_zero_of_mask_eq_zero {c k : Nat} (h : mask c k = some 0) : c = 0 ∧ k = 0 := by
  by_contra hne
  by_cases hopen : openCell c k = some 0 <;> simp [mask, hne, hopen] at h

theorem Config.le_maxFrame : 135 ≤ maxFrame := Nat.le_add_left 135 maxFrameExtra

/-! ### Plain bytes and the payload of an open frame -/

theorem plainByte_iff {b : Byte} : plainByte b = true ↔ b ≠ sox ∧ b ≠ eox := by
  simp [plainByte]

/-- The payload of a frame is all that its buffer holds from index 6 on when the end marker comes. -/
theorem framePayload_append_eox (buf : List Byte) : framePayload (buf ++ [eox]) = buf.drop 6 := by
  have hlen : (buf ++ [eox]).length - 7 = (buf.drop 6).length := by simp
  rcases Nat.lt_or_ge buf.length 6 with hshort | hlong
  · have hnil : buf.drop 6 = [] := List.drop_eq_nil_of_le (by omega)
    rw [framePayload, hlen, hnil, List.length_nil, List.take_zero]
  · rw [framePayload, hlen, List.drop_append_of_le_length hlong, List.take_left]

namespace Machine

/-- A frame that ParseFrame accepts is read at its fixed places (40_rx_decoder.md R102). -/
theorem parseFrame_valid {f : List Byte} {o : Bool} {op : Byte} {p : List Byte}
    (h : parseFrame f o = .valid op p) : op = frameOp f ∧ p = framePayload f := by
  unfold parseFrame at h
  split_ifs at h
  cases h
  exact ⟨rfl, rfl⟩

/-- What EndFrame does to the block: the RX registers are closed, and 128 bytes of payload may become the map. -/
theorem endFrame_block_cases (k : Block) :
    (endFrame k).1 = k.closeFrame ∨
      ((k.rxBuf.drop 6).length = mapPayloadLen ∧
        (endFrame k).1 = k.closeFrame.writeMap (k.rxBuf.drop 6)) := by
  obtain ⟨_, _, hend⟩ | ⟨op, p, hparse, ⟨_, hend⟩ | ⟨_, _, hend⟩ | ⟨_, hlen, hend⟩⟩ := endFrame_cases k
  · exact .inl (by rw [hend])
  · exact .inl (by rw [hend])
  · exact .inl (by rw [hend])
  · have hp : p = k.rxBuf.drop 6 :=
      (parseFrame_valid hparse).2.trans (framePayload_append_eox k.rxBuf)
    subst hp
    exact .inr ⟨hlen, by rw [hend]⟩

/-! ### INV1 to INV4 and the operations on the RX registers -/

variable {k : Block} {b : Byte} {p : List Byte}

theorem Block.rxInv_of_idle (hmode : k.rxMode = .idle) (hbuf : k.rxBuf = [])
    (hovf : k.rxOvf = false) : k.RxInv where
  idle_empty _ := ⟨hbuf, hovf⟩
  acc_opened hacc := by simp [hmode] at hacc
  bounded := by simp [hbuf]
  ovf_full ho := by simp [hovf] at ho

theorem Block.rxInv_initial (notes : Vector Byte 64) : (Block.initial notes).RxInv :=
  Block.rxInv_of_idle rfl rfl rfl

theorem Block.rxInv_closeFrame (k : Block) : k.closeFrame.RxInv := Block.rxInv_of_idle rfl rfl rfl

/-- The map store is no RX register. -/
theorem Block.RxInv.writeMap (h : k.RxInv) (p : List Byte) : (k.writeMap p).RxInv :=
  ⟨h.idle_empty, h.acc_opened, h.bounded, h.ovf_full⟩

theorem Block.rxInv_openFrame (k : Block) : k.openFrame.RxInv where
  idle_empty hidle := by simp at hidle
  acc_opened _ := by simp
  bounded := by
    have := le_maxFrame
    simp only [Block.openFrame_rxBuf, List.length_singleton]
    omega
  ovf_full ho := by simp at ho

/-- An ordinary byte of an open frame is appended while there is room, so that rx_ovf was not set; or it is dropped
from a buffer that holds exactly MAX_FRAME - 1 bytes (40_rx_decoder.md R100). -/
theorem Block.RxInv.takeByte (h : k.RxInv) (hacc : k.rxMode = .acc) (hb : plainByte b = true) :
    (k.takeByte maxFrame b).RxInv := by
  obtain ⟨hhead, hplain⟩ := h.acc_opened hacc
  rcases Nat.lt_or_ge k.rxBuf.length (maxFrame - 1) with hroom | hfull
  · rw [Block.takeByte_of_lt k b maxFrame hroom]
    refine ⟨fun hidle => ?_, fun _ => ⟨?_, ?_⟩, ?_, fun ho => ?_⟩
    · simp [hacc] at hidle
    · simp [List.head?_append, hhead]
    · have hne : k.rxBuf ≠ [] := by rintro hnil; simp [hnil] at hhead
      simpa [List.tail_append_of_ne_nil hne, or_imp, forall_and, hb] using hplain
    · simpa using Nat.succ_le_of_lt hroom
    · exact absurd (h.ovf_full ho).2 hroom.ne
  · rw [Block.takeByte_of_le k b maxFrame hfull]
    refine ⟨fun hidle => ?_, h.acc_opened, h.bounded, fun _ => ⟨hacc, ?_⟩⟩
    · simp [hacc] at hidle
    · exact le_antisymm h.bounded hfull

/-- Past the start marker an open frame holds no marker, so none from its payload's first index on. -/
theorem Block.RxInv.payload_plain (h : k.RxInv) (hacc : k.rxMode = .acc) :
    ∀ b ∈ k.rxBuf.drop 6, plainByte b = true := by
  intro b hb
  have htail : k.rxBuf.drop 6 = k.rxBuf.tail.drop 5 := by rw [← List.drop_one, List.drop_drop]
  exact (h.acc_opened hacc).2 b (List.mem_of_mem_drop (htail ▸ hb))

/-! ### The map's invariant -/

theorem Block.mapInv_of_not_valid (h : k.mapValid = false) : k.MapInv := by
  simp [Block.MapInv, h]

/-- The map's invariant speaks of the map store alone. -/
theorem Block.MapInv.congr {k' : Block} (h : k.MapInv) (hvalid : k'.mapValid = k.mapValid)
    (hnote : k'.mapNote = k.mapNote) : k'.MapInv := by
  simpa [Block.MapInv, Block.noteAt, hvalid, hnote] using h

/-- All 64 notes of a payload of 128 bytes are bytes of it (20_memory.md R45). -/
theorem payloadNote_mem (hlen : p.length = mapPayloadLen) (i : ButtonId) : payloadNote p i.val ∈ p := by
  have hi : 2 * i.val < p.length := by rw [hlen]; unfold mapPayloadLen; omega
  rw [payloadNote, List.getD_eq_getElem p 0 hi]
  exact List.getElem_mem hi

theorem Block.mapInv_writeMap (k : Block) (hlen : p.length = mapPayloadLen)
    (hplain : ∀ b ∈ p, plainByte b = true) : (k.writeMap p).MapInv := by
  intro _ i
  rw [Block.writeMap_noteAt]
  exact hplain _ (payloadNote_mem hlen i)

/-! ### The invariant of the block, from one byte to one step -/

/-- The invariant of the block, which is all that the machine's invariant is about. -/
def Block.Inv (k : Block) : Prop := k.RxInv ∧ k.MapInv

theorem State.inv_iff {s : State} : s.Inv ↔ s.block.Inv := Iff.rfl

theorem Block.inv_initial (notes : Vector Byte 64) : (Block.initial notes).Inv :=
  ⟨Block.rxInv_initial notes, Block.mapInv_of_not_valid rfl⟩

/-- EndFrame keeps the invariant: a payload that becomes the map was gathered without a marker. -/
theorem endFrame_keeps_inv (h : k.Inv) (hacc : k.rxMode = .acc) : (endFrame k).1.Inv := by
  obtain ⟨hrx, hmap⟩ := h
  obtain hend | ⟨hlen, hend⟩ := endFrame_block_cases k <;> rw [hend]
  · exact ⟨k.rxInv_closeFrame, hmap.congr rfl rfl⟩
  · exact ⟨k.rxInv_closeFrame.writeMap _, Block.mapInv_writeMap _ hlen (hrx.payload_plain hacc)⟩

theorem feedByte_keeps_inv (b : Byte) (h : k.Inv) : (feedByte maxFrame b k).1.Inv := by
  have ⟨hrx, hmap⟩ := h
  obtain ⟨_, hf⟩ | ⟨_, _, hf⟩ | ⟨_, hacc, hf⟩ | ⟨_, _, _, hf⟩ | ⟨hs, he, hacc, hf⟩ :=
    feedByte_cases maxFrame b k <;> rw [hf]
  · exact ⟨k.rxInv_openFrame, hmap.congr rfl rfl⟩
  · exact h
  · exact endFrame_keeps_inv h hacc
  · exact h
  · exact ⟨hrx.takeByte hacc (plainByte_iff.2 ⟨hs, he⟩), hmap.congr (by simp) (by simp)⟩

theorem feedBytes_keeps_inv (bytes : List Byte) (h : k.Inv) :
    (feedBytes maxFrame bytes k).1.Inv := by
  induction bytes generalizing k with
  | nil => exact h
  | cons b more ih => exact ih (feedByte_keeps_inv b h)

theorem exec_keeps_inv {i : Instr} {s t : State} (h : s.Inv) (hexec : exec i s = .next t) : t.Inv := by
  obtain ⟨_, _, rfl⟩ | ⟨b, _, rfl⟩ | ⟨_, rfl⟩ | ⟨bytes, _, rfl⟩ := exec_cases hexec
  · exact h
  · exact feedByte_keeps_inv b h
  · exact Block.inv_initial _
  · exact feedBytes_keeps_inv bytes h

/-! ### The obligations -/

/-- Settles O41, from what a step can do: nothing, or one instruction, each of which keeps the invariant. -/
theorem everyStepKeepsTheInvariant : Obligations.EveryStepKeepsTheInvariant := by
  intro s t hinv hstep
  obtain ⟨_, rfl⟩ | ⟨i, rest, _, hexec⟩ := step_cases hstep
  · exact hinv
  · have hrest : State.Inv { s with inbox := rest } := hinv
    exact exec_keeps_inv hrest hexec

/-- Settles O13, from the one given cell of MASK, the other cells, and the lower bound of MAX_FRAME. -/
theorem parametersMeetTheirConditions : Obligations.ParametersMeetTheirConditions :=
  ⟨⟨mask_zero_zero, fun _ _ _ _ h => eq_zero_of_mask_eq_zero h⟩, le_maxFrame⟩

/-- Settles O40: the block at power-on is one that ResetState leaves. -/
theorem invariantHoldsAtReset : Obligations.InvariantHoldsAtReset :=
  State.inv_iff.2 (Block.inv_initial (Vector.replicate 64 0))

end Machine

end Sys2Proof
end

section
/-! PROOFS. The command stream (spec/20_memory.md R50), the commands that change no block state (R49) and the map store,
which is written as a whole or not at all (R48; spec/40_rx_decoder.md R111). -/

namespace Sys2Proof

open Config

/-! ### The fetch, an equation for each form of the next request -/

section fetch

variable {rest : List Request} {bytes : List Byte} {i : Instr} {e : FrameError}

@[simp] theorem fetch_command (w : CmdWord) :
    fetch (.command w :: rest) = some (decodeCommand w, rest) := rfl

theorem fetch_frame (h : decodeFrame bytes = .ok i) :
    fetch (.wire bytes :: rest) = some (i, rest) := by
  simp [fetch, h]

theorem fetch_of_no_frame {b c : Byte} (h : decodeFrame (b :: c :: bytes) = .error e) :
    fetch (.wire (b :: c :: bytes) :: rest) = some (.feed b, .wire (c :: bytes) :: rest) := by
  simp [fetch, h]

/-- One byte is never a frame (30_encoding.md R60). -/
@[simp] theorem fetch_lone_byte (b : Byte) : fetch (.wire [b] :: rest) = some (.feed b, rest) := rfl

end fetch

/-! ### The bytes of a wire frame -/

/-- A marker is no 7-bit value. -/
theorem plainByte_of_lt {b : Byte} (h : b.toNat < 128) : plainByte b = true := by
  rw [plainByte_iff]
  constructor <;> rintro rfl <;> revert h <;> decide

theorem wellFramed_iff {op : Byte} {p : List Byte} :
    wellFramed op p = true ↔
      plainByte op = true ∧ (∀ b ∈ p, plainByte b = true) ∧ p.length + 7 ≤ maxFrame := by
  simp [wellFramed, and_assoc]

/-- The wire form of a well-formed instruction is a frame whose operation and payload hold no marker and fit in MAX_FRAME
bytes (30_encoding.md R60, R61). -/
theorem encode_wire_wellFramed {i : Instr} {bytes : List Byte} (hwf : WellFormed i = true)
    (h : encode i = .wire bytes) :
    ∃ op p, wellFramed op p = true ∧ bytes = frameBytes op p := by
  have hbound := le_maxFrame
  cases i with
  | syncFrame cols =>
    cases h
    refine ⟨_, _, wellFramed_iff.2 ⟨by decide, fun b hb => ?_, ?_⟩, rfl⟩
    · obtain ⟨v, _, rfl⟩ := List.mem_map.1 hb
      exact plainByte_of_lt (by rw [BitVec.toNat_setWidth_of_le (by decide)]; exact v.isLt)
    · rw [List.length_map, Vector.length_toList]
      omega
  | factoryResetFrame =>
    cases h
    exact ⟨_, _, wellFramed_iff.2 ⟨by decide, by decide, by rw [List.length_nil]; omega⟩, rfl⟩
  | mapRequestFrame =>
    cases h
    exact ⟨_, _, wellFramed_iff.2 ⟨by decide, by decide, by rw [List.length_singleton]; omega⟩, rfl⟩
  | mapResponseFrame p => cases h; exact ⟨_, p, hwf, rfl⟩
  | otherValidFrame op p => cases h; exact ⟨op, p, (Bool.and_eq_true_iff.1 hwf).1, rfl⟩
  | _ => cases h

/-- The only end marker of a frame is its last byte (30_encoding.md R60). -/
theorem exists_body_of_wellFramed {op : Byte} {p : List Byte} (h : wellFramed op p = true) :
    ∃ body, eox ∉ body ∧ frameBytes op p = body ++ [eox] := by
  obtain ⟨hop, hp, _⟩ := wellFramed_iff.1 h
  have hhead : eox ∉ [sox, hdr1, hdr2, hdr3, devId] := by decide
  have hplain : ∀ b ∈ op :: p, plainByte b = true := List.forall_mem_cons.2 ⟨hop, hp⟩
  have hrest : eox ∉ op :: p := fun hin => (plainByte_iff.1 (hplain eox hin)).2 rfl
  exact ⟨[sox, hdr1, hdr2, hdr3, devId] ++ op :: p,
    fun hin => (List.mem_append.1 hin).elim hhead hrest, rfl⟩

namespace Machine

/-! ### The map store under FEED -/

variable {bound : Nat} {k k₁ k₂ : Block} {b : Byte} {p : List Byte}

/-- The map of the second block is the map of the first: map_valid and map_note are unchanged. -/
def Block.SameMap (k k' : Block) : Prop := k'.mapValid = k.mapValid ∧ k'.mapNote = k.mapNote

theorem Block.SameMap.trans (h : k.SameMap k₁) (h' : k₁.SameMap k₂) : k.SameMap k₂ :=
  ⟨h'.1.trans h.1, h'.2.trans h.2⟩

/-- The block has a map, and all 64 entries of it are the notes of one 128-byte payload (20_memory.md R45). -/
structure Block.HoldsMapOf (k : Block) (p : List Byte) : Prop where
  length_eq : p.length = mapPayloadLen
  valid : k.mapValid = true
  notes : ∀ i : ButtonId, p[2 * i.val]? = some (k.noteAt i)

/-- MapExtract's writes fill every entry (40_rx_decoder.md R104). -/
theorem Block.holdsMapOf_writeMap (k : Block) (hlen : p.length = mapPayloadLen) :
    (k.writeMap p).HoldsMapOf p where
  length_eq := hlen
  valid := rfl
  notes i := by
    have hi : 2 * i.val < p.length := by rw [hlen]; unfold mapPayloadLen; omega
    rw [Block.writeMap_noteAt, payloadNote, List.getElem?_eq_getElem hi,
      List.getD_eq_getElem p 0 hi]

/-- EndFrame keeps the map, or replaces it from the payload that it reports as MAP_UPDATED. -/
theorem endFrame_map_cases (k : Block) :
    k.SameMap (endFrame k).1 ∨
      ∃ p, (endFrame k).1.HoldsMapOf p ∧ (endFrame k).2 = Response.ok.emitRx opMap p mstMapUpdated := by
  obtain ⟨_, _, hend⟩ | ⟨op, p, _, ⟨_, hend⟩ | ⟨_, _, hend⟩ | ⟨_, hlen, hend⟩⟩ := endFrame_cases k <;>
    rw [hend]
  · exact .inl ⟨rfl, rfl⟩
  · exact .inl ⟨rfl, rfl⟩
  · exact .inl ⟨rfl, rfl⟩
  · exact .inr ⟨p, k.closeFrame.holdsMapOf_writeMap hlen, rfl⟩

/-- FEED keeps the map but at an end marker, which may replace it as a whole. -/
theorem feedByte_map_cases (bound : Nat) (b : Byte) (k : Block) :
    k.SameMap (feedByte bound b k).1 ∨
      ∃ p, b = eox ∧ (feedByte bound b k).1.HoldsMapOf p ∧
        (feedByte bound b k).2 = Response.ok.emitRx opMap p mstMapUpdated := by
  obtain ⟨_, hf⟩ | ⟨_, _, hf⟩ | ⟨hb, _, hf⟩ | ⟨_, _, _, hf⟩ | ⟨_, _, _, hf⟩ :=
    feedByte_cases bound b k <;> rw [hf]
  · exact .inl ⟨rfl, rfl⟩
  · exact .inl ⟨rfl, rfl⟩
  · obtain hsame | ⟨p, hmap, hr⟩ := endFrame_map_cases k
    · exact .inl hsame
    · exact .inr ⟨p, hb, hmap, hr⟩
  · exact .inl ⟨rfl, rfl⟩
  · exact .inl ⟨k.takeByte_mapValid b bound, k.takeByte_mapNote b bound⟩

theorem feedBytes_sameMap_of_no_eox {bytes : List Byte} (h : eox ∉ bytes) :
    k.SameMap (feedBytes bound bytes k).1 := by
  induction bytes generalizing k with
  | nil => exact ⟨rfl, rfl⟩
  | cons b more ih =>
    obtain ⟨hb, hmore⟩ := not_or.1 (mt List.mem_cons.2 h)
    obtain hsame | ⟨_, heq, _⟩ := feedByte_map_cases bound b k
    · exact hsame.trans (ih hmore)
    · exact absurd heq.symm hb

/-- A run of bytes whose only end marker is its last byte keeps the map, or replaces it as a whole from the payload that
its last response reports. -/
theorem feedBytes_map_cases {body : List Byte} (h : eox ∉ body) :
    k.SameMap (feedBytes bound (body ++ [eox]) k).1 ∨
      ∃ p, (feedBytes bound (body ++ [eox]) k).1.HoldsMapOf p ∧
        (feedBytes bound (body ++ [eox]) k).2.getLast? =
          some (Response.ok.emitRx opMap p mstMapUpdated) := by
  have hbody : k.SameMap (feedBytes bound body k).1 := feedBytes_sameMap_of_no_eox h
  rw [feedBytes_append, feedBytes_cons, feedBytes_nil]
  obtain hsame | ⟨p, _, hmap, hr⟩ := feedByte_map_cases bound eox (feedBytes bound body k).1
  · exact .inl (hbody.trans hsame)
  · exact .inr ⟨p, hmap, by simp [hr]⟩

/-! ### Commands that change no block state -/

/-- The state that a command with a pure response leaves: one response more, and nothing else changed. -/
theorem exec_eq_next_of_pureResponse {i : Instr} {s : State} {r : Response}
    (h : pureResponse i s.block = some r) :
    exec i s = .next { s with outbox := s.outbox ++ [r] } := exec_of_pureResponse h

/-- The commands of 20_memory.md R49 and the reserved one have a pure response. -/
theorem exists_pureResponse {i : Instr}
    (h : i = .nop ∨ (∃ states, i = .sync states) ∨ i = .emitFactoryReset ∨ i = .emitMapRequest ∨
      (∃ n, i = .lookup n) ∨ i = .reserved) (k : Block) :
    ∃ r, pureResponse i k = some r := by
  obtain rfl | ⟨_, rfl⟩ | rfl | rfl | ⟨_, rfl⟩ | rfl := h <;> exact ⟨_, rfl⟩

/-! ### The obligations -/

/-- Settles O42, from what an instruction can do: only a FEED or a received frame can write the map, and the frame's one
end marker is its last byte. -/
theorem mapChangesOnlyAsAWhole : Obligations.MapChangesOnlyAsAWhole := by
  intro i s t hwf hexec
  obtain ⟨_, _, rfl⟩ | ⟨b, _, rfl⟩ | ⟨hi, rfl⟩ | ⟨bytes, hwire, rfl⟩ := exec_cases hexec
  · exact .inl ⟨rfl, rfl⟩
  · obtain hsame | ⟨p, _, hmap, hr⟩ := feedByte_map_cases maxFrame b s.block
    · exact .inl hsame
    · exact .inr (.inr ⟨p, hmap.length_eq, hmap.valid, hmap.notes, by rw [hr, List.getLast?_concat]; rfl⟩)
  · exact .inr (.inl ⟨hi, rfl⟩)
  · obtain ⟨op, p, hframed, rfl⟩ := encode_wire_wellFramed hwf hwire
    obtain ⟨body, hbody, hbytes⟩ := exists_body_of_wellFramed hframed
    rw [hbytes]
    obtain hsame | ⟨p, hmap, hlast⟩ := feedBytes_map_cases (bound := maxFrame) (k := s.block) hbody
    · exact .inl hsame
    · exact .inr (.inr ⟨p, hmap.length_eq, hmap.valid, hmap.notes,
        by rw [List.getLast?_append, hlast]; rfl⟩)

/-- Settles O36, from the fetch of each form of the next request. -/
theorem stepRunsTheDecodedInstruction : Obligations.StepRunsTheDecodedInstruction := by
  intro s rest
  refine ⟨fun w h => ?_, fun bytes i h hdec => ?_, fun b c more e h hdec => ?_, fun b h => ?_⟩
  · exact step_of_fetch (by rw [h, fetch_command])
  · exact step_of_fetch (by rw [h, fetch_frame hdec])
  · exact step_of_fetch (by rw [h, fetch_of_no_frame hdec])
  · exact step_of_fetch (by rw [h, fetch_lone_byte])

/-- Settles O39: a pure response is read from the block state alone, which the command leaves as it was. -/
theorem pureCommandsChangeNoBlockState : Obligations.PureCommandsChangeNoBlockState := by
  intro i s hi
  obtain ⟨r, hr⟩ := exists_pureResponse hi s.block
  exact ⟨r, exec_eq_next_of_pureResponse hr, exec_eq_next_of_pureResponse hr⟩

end Machine

end Sys2Proof
end

section
/-! PROOFS. The command word (spec/30_encoding.md R71 to R74, R80) and the assembler's pseudo-instructions (R79): the
fields of a packed word, the command of each OP, and the expansions. -/

namespace Sys2Proof

open Laws.MatchesRow

/-! ### The fields of a packed word -/

section fields

variable (s : Buttons) (b : Byte) (op : BitVec 3)

/-- CMDW = S * 2^11 + B * 2^3 + OP: the three fields do not overlap (30_encoding.md R71). -/
theorem toNat_packCmd :
    (packCmd s b op).toNat = s.toNat * 2 ^ 11 + b.toNat * 2 ^ 3 + op.toNat := by
  have hs := s.isLt
  have hb := b.isLt
  have ho := op.isLt
  have hlow : b.toNat <<< 3 + op.toNat < 2 ^ 11 := by rw [Nat.shiftLeft_eq]; omega
  have hor : s.toNat <<< 11 ||| b.toNat <<< 3 ||| op.toNat =
      s.toNat <<< 11 + (b.toNat <<< 3 + op.toNat) := by
    rw [Nat.or_assoc, ← Nat.shiftLeft_add_eq_or_of_lt ho, ← Nat.shiftLeft_add_eq_or_of_lt hlow]
  have hshift : s.toNat <<< 11 < 2 ^ 75 ∧ b.toNat <<< 3 < 2 ^ 75 := by
    simp only [Nat.shiftLeft_eq]; omega
  have hwidth : s.toNat < 2 ^ 75 ∧ b.toNat < 2 ^ 75 ∧ op.toNat < 2 ^ 75 := by omega
  rw [packCmd, BitVec.toNat_or, BitVec.toNat_or, BitVec.toNat_shiftLeft, BitVec.toNat_shiftLeft,
    BitVec.toNat_setWidth, BitVec.toNat_setWidth, BitVec.toNat_setWidth, Nat.mod_eq_of_lt hwidth.1,
    Nat.mod_eq_of_lt hwidth.2.1, Nat.mod_eq_of_lt hwidth.2.2, Nat.mod_eq_of_lt hshift.1,
    Nat.mod_eq_of_lt hshift.2, hor, Nat.shiftLeft_eq, Nat.shiftLeft_eq, Nat.add_assoc]

@[simp] theorem cmdB_packCmd : cmdB (packCmd s b op) = b := by
  apply BitVec.eq_of_toNat_eq
  rw [cmdB, BitVec.extractLsb'_toNat, toNat_packCmd, Nat.shiftRight_eq_div_pow]
  omega

@[simp] theorem cmdS_packCmd : cmdS (packCmd s b op) = s := by
  apply BitVec.eq_of_toNat_eq
  rw [cmdS, BitVec.extractLsb'_toNat, toNat_packCmd, Nat.shiftRight_eq_div_pow]
  omega

/-- The packed word is the number that 30_encoding.md R71 writes. -/
theorem packCmd_eq_ofNat :
    packCmd s b op = BitVec.ofNat 75 (s.toNat * 2 ^ 11 + b.toNat * 2 ^ 3 + op.toNat) := by
  rw [← toNat_packCmd, BitVec.ofNat_toNat, BitVec.setWidth_eq]

end fields

/-! ### The command of each OP (30_encoding.md R73) -/

section decode

variable {w : CmdWord}

theorem decodeCommand_nop (h : cmdOp w = 0) : decodeCommand w = .nop := by
  simp [decodeCommand, h]

theorem decodeCommand_feed (h : cmdOp w = 1) : decodeCommand w = .feed (cmdB w) := by
  simp [decodeCommand, h]

theorem decodeCommand_sync (h : cmdOp w = 2) : decodeCommand w = .sync (cmdS w) := by
  simp [decodeCommand, h]

theorem decodeCommand_emitFactoryReset (h : cmdOp w = 3) : decodeCommand w = .emitFactoryReset := by
  simp [decodeCommand, h]

theorem decodeCommand_emitMapRequest (h : cmdOp w = 4) : decodeCommand w = .emitMapRequest := by
  simp [decodeCommand, h]

theorem decodeCommand_lookup (h : cmdOp w = 5) : decodeCommand w = .lookup (cmdB w) := by
  simp [decodeCommand, h]

theorem decodeCommand_reset (h : cmdOp w = 6) : decodeCommand w = .reset := by
  simp [decodeCommand, h]

theorem decodeCommand_reserved (h : cmdOp w = 7) : decodeCommand w = .reserved := by
  simp [decodeCommand, h]

variable (s : Buttons) (b : Byte)

theorem decodeCommand_packCmd_feed : decodeCommand (packCmd s b 1) = .feed b := by
  rw [decodeCommand_feed (cmdOp_packCmd s b 1), cmdB_packCmd]

theorem decodeCommand_packCmd_sync : decodeCommand (packCmd s b 2) = .sync s := by
  rw [decodeCommand_sync (cmdOp_packCmd s b 2), cmdS_packCmd]

theorem decodeCommand_packCmd_lookup : decodeCommand (packCmd s b 5) = .lookup b := by
  rw [decodeCommand_lookup (cmdOp_packCmd s b 5), cmdB_packCmd]

end decode

/-- OP has eight values (30_encoding.md R73). -/
theorem op_cases : ∀ op : BitVec 3,
    op = 0 ∨ op = 1 ∨ op = 2 ∨ op = 3 ∨ op = 4 ∨ op = 5 ∨ op = 6 ∨ op = 7 := by decide

namespace Machine

/-! ### The pseudo-instructions -/

/-- The words of a run of FEEDs decode to the FEEDs of its bytes. -/
theorem map_decodeCommand_feedWords (bytes : List Byte) :
    (feedWords bytes).map decodeCommand = bytes.map .feed := by
  rw [feedWords, List.map_map]
  exact List.map_congr_left fun b _ => decodeCommand_packCmd_feed 0 b

/-- Setting the listed bits one after the other keeps the bits that were set before. -/
theorem getLsbD_foldl_twoPow (ids : List ButtonId) (s : Buttons) (j : ButtonId) :
    (ids.foldl (fun s i => s ||| BitVec.twoPow 64 i.val) s).getLsbD j.val = true ↔
      s.getLsbD j.val = true ∨ j ∈ ids := by
  induction ids generalizing s with
  | nil => simp
  | cons i ids ih =>
    have hbit : (BitVec.twoPow 64 i.val).getLsbD j.val = true ↔ j = i := by
      simp [Fin.ext_iff]
    rw [List.foldl_cons, ih, BitVec.getLsbD_or, Bool.or_eq_true, hbit, List.mem_cons, or_assoc]

/-- SYNC_ON's vector has exactly the listed bits (30_encoding.md R79). -/
theorem getLsbD_bitsOn (ids : List ButtonId) (j : ButtonId) :
    (bitsOn ids).getLsbD j.val = true ↔ j ∈ ids := by
  rw [bitsOn, getLsbD_foldl_twoPow]
  simp

/-! ### The obligations -/

/-- Settles O30: the word is the packing of S, B and OP, whose fields are read back. -/
theorem commandWordDecodesByItsOp : Obligations.CommandWordDecodesByItsOp := by
  intro states b word
  have hword (op : BitVec 3) : word op.toNat = packCmd states b op :=
    (packCmd_eq_ofNat states b op).symm
  have hop (op : BitVec 3) : cmdOp (word op.toNat) = op := by rw [hword, cmdOp_packCmd]
  refine ⟨decodeCommand_nop (hop 0), ?_, ?_, decodeCommand_emitFactoryReset (hop 3),
    decodeCommand_emitMapRequest (hop 4), ?_, decodeCommand_reset (hop 6),
    decodeCommand_reserved (hop 7)⟩
  · exact (congrArg decodeCommand (hword 1)).trans (decodeCommand_packCmd_feed states b)
  · exact (congrArg decodeCommand (hword 2)).trans (decodeCommand_packCmd_sync states b)
  · exact (congrArg decodeCommand (hword 5)).trans (decodeCommand_packCmd_lookup states b)

/-- Settles O31, by the command of each OP: B is read for OP 1 and 5 alone, and S for OP 2 alone. -/
theorem unreadOperandFieldsAreIgnored : Obligations.UnreadOperandFieldsAreIgnored := by
  intro v w hop hb hs
  obtain hv | hv | hv | hv | hv | hv | hv | hv := op_cases (cmdOp v) <;> have hw := hop.symm.trans hv
  · rw [decodeCommand_nop hv, decodeCommand_nop hw]
  · rw [decodeCommand_feed hv, decodeCommand_feed hw, hb (.inl hv)]
  · rw [decodeCommand_sync hv, decodeCommand_sync hw, hs hv]
  · rw [decodeCommand_emitFactoryReset hv, decodeCommand_emitFactoryReset hw]
  · rw [decodeCommand_emitMapRequest hv, decodeCommand_emitMapRequest hw]
  · rw [decodeCommand_lookup hv, decodeCommand_lookup hw, hb (.inr hv)]
  · rw [decodeCommand_reset hv, decodeCommand_reset hw]
  · rw [decodeCommand_reserved hv, decodeCommand_reserved hw]

/-- Settles O32: a table of literal words, evaluated. -/
theorem encodingExamplesDecode : Obligations.EncodingExamplesDecode := by
  unfold Obligations.EncodingExamplesDecode
  decide

/-- Settles O35: each expansion is a list of packed words, whose operands are read back. -/
theorem pseudoInstructionsExpandAsListed : Obligations.PseudoInstructionsExpandAsListed := by
  refine ⟨map_decodeCommand_feedWords, fun op p => map_decodeCommand_feedWords (frameBytes op p),
    fun ids => ⟨bitsOn ids, ?_, getLsbD_bitsOn ids⟩, ?_, ?_⟩
  · exact congrArg ([·]) (decodeCommand_packCmd_sync (bitsOn ids) 0)
  · exact congrArg ([·]) (decodeCommand_packCmd_sync (BitVec.allOnes 64) 0)
  · exact congrArg ([·]) (decodeCommand_packCmd_sync 0 0)

end Machine

end Sys2Proof
end

section
/-! PROOFS. The wire frame (spec/30_encoding.md R60 to R67): the shape of the frames that the decoder takes, the row of
each, and the two round trips between instructions and requests. -/

namespace Sys2Proof

open Config Laws.MatchesRow

variable {op : Byte} {p f bytes : List Byte} {i : Instr}

/-! ### The shape of a frame -/

/-- A frame tells its operation and its payload. -/
theorem frameBytes_inj {op' : Byte} {p' : List Byte} (h : frameBytes op p = frameBytes op' p') :
    op = op' ∧ p = p' := by
  simpa [frameBytes] using h

@[simp] theorem frameBytes_getD_op (op : Byte) (p : List Byte) : (frameBytes op p).getD 5 0 = op := rfl

/-- A byte sequence with the fixed bytes at their places is the frame of what stands between them (30_encoding.md
R60). -/
theorem eq_frameBytes_of_fixed (hlen : 7 ≤ f.length) (hsox : f[0]? = some sox)
    (h1 : f[1]? = some hdr1) (h2 : f[2]? = some hdr2) (h3 : f[3]? = some hdr3)
    (hdev : f[4]? = some devId) (heox : f[f.length - 1]? = some eox) :
    f = frameBytes (f.getD 5 0) (framePayload f) := by
  obtain ⟨b0, b1, b2, b3, b4, b5, rest, rfl⟩ :
      ∃ b0 b1 b2 b3 b4 b5 rest, f = [b0, b1, b2, b3, b4, b5] ++ rest := by
    match f, hlen with
    | b0 :: b1 :: b2 :: b3 :: b4 :: b5 :: rest, _ => exact ⟨b0, b1, b2, b3, b4, b5, rest, rfl⟩
  obtain rfl | ⟨p, last, rfl⟩ := rest.eq_nil_or_concat'
  · simp at hlen
  · simp_all [framePayload, frameBytes]

/-- The end marker is the last byte of a frame. -/
theorem frameBytes_getElem?_last (op : Byte) (p : List Byte) :
    (frameBytes op p)[(frameBytes op p).length - 1]? = some eox := by
  simp [frameBytes]

theorem decodeFrame_frameBytes (h : wellFramed op p = true) :
    decodeFrame (frameBytes op p) = .ok (frameRow op p) := by
  obtain ⟨hop, hp, hlen⟩ := wellFramed_iff.1 h
  have hplain : (plainByte op && p.all plainByte) = true :=
    Bool.and_eq_true_iff.2 ⟨hop, List.all_eq_true.2 hp⟩
  unfold decodeFrame
  rw [if_neg (by simp), if_neg (by simp [frameBytes]), if_neg (by simp [frameBytes]),
    if_neg (by simp [frameBytes]), if_neg (not_not.2 (frameBytes_getElem?_last op p)),
    frameBytes_getD_op, framePayload_frameBytes, if_neg (by simp [hplain]),
    if_neg (by simpa using hlen)]

/-- The decoder takes a byte sequence exactly where it is the frame of an operation and a payload without markers that
fit in MAX_FRAME bytes, and reads it as the row of these (30_encoding.md R60, R61). -/
theorem decodeFrame_eq_ok_iff :
    decodeFrame f = .ok i ↔
      ∃ op p, wellFramed op p = true ∧ f = frameBytes op p ∧ i = frameRow op p := by
  constructor
  · intro h
    unfold decodeFrame at h
    split_ifs at h with hshort hsox hhdr hdev heox hplain hlong
    cases h
    obtain ⟨h1, h2, h3⟩ : f[1]? = some hdr1 ∧ f[2]? = some hdr2 ∧ f[3]? = some hdr3 := by
      simpa only [not_or, not_not] using hhdr
    have hf := eq_frameBytes_of_fixed (not_lt.1 hshort) (not_not.1 hsox) h1 h2 h3 (not_not.1 hdev)
      (not_not.1 heox)
    have hlen : (framePayload f).length + 7 = f.length := by
      rw [← frameBytes_length (f.getD 5 0), ← hf]
    refine ⟨f.getD 5 0, framePayload f, ?_, hf, rfl⟩
    simp only [Bool.not_eq_true', Bool.not_eq_false] at hplain
    rw [wellFramed, hplain, hlen, Bool.true_and, decide_eq_true_iff]
    exact not_lt.1 hlong
  · rintro ⟨op, p, hwell, rfl, rfl⟩
    exact decodeFrame_frameBytes hwell

/-! ### The row of a frame -/

/-- The values of a sync payload: the low seven bits of each of its 12 bytes (30_encoding.md R62). -/
def syncValues (p : List Byte) : Vector (BitVec 7) 12 :=
  Vector.ofFn fun i => (p.getD i.val 0).truncate 7

theorem hasOwnRow_iff :
    hasOwnRow op p = true ↔
      op = opMap ∨ (op = opSync ∧ p.length = 12 ∧ ∀ b ∈ p, b.toNat < 128) ∨
        (op = opFactoryReset ∧ p = []) ∨ (op = opRequest ∧ p = [opMap]) := by
  simp [hasOwnRow, and_assoc, or_assoc]

theorem frameRow_map (p : List Byte) : frameRow opMap p = .mapResponseFrame p := if_pos rfl

theorem frameRow_sync (hlen : p.length = 12) (hseven : ∀ b ∈ p, b.toNat < 128) :
    frameRow opSync p = .syncFrame (syncValues p) := by
  have hall : p.all (fun b => decide (b.toNat < 128)) = true := by simpa using hseven
  rw [frameRow, if_neg (by decide), if_pos ⟨rfl, hlen, hall⟩, syncValues]

theorem frameRow_factoryReset : frameRow opFactoryReset [] = .factoryResetFrame := by decide

theorem frameRow_mapRequest : frameRow opRequest [opMap] = .mapRequestFrame := by decide

/-- A frame without a row of its own is an OTHER_VALID_FRAME (log entry 11). -/
theorem frameRow_other (h : hasOwnRow op p = false) : frameRow op p = .otherValidFrame op p := by
  simp only [← Bool.not_eq_true, hasOwnRow_iff, not_or] at h
  obtain ⟨hmap, hsync, hreset, hrequest⟩ := h
  rw [frameRow, if_neg hmap, if_neg (by simpa using hsync), if_neg hreset, if_neg hrequest]

/-! ### The seven-bit values of a sync frame -/

/-- Twelve bytes below 128 are the values read from them. -/
theorem syncValues_bytes (hlen : p.length = 12) (hseven : ∀ b ∈ p, b.toNat < 128) :
    (syncValues p).toList.map (·.zeroExtend 8) = p := by
  apply List.ext_getElem
  · simp [hlen]
  · intro j _ hj
    have hb : p[j].toNat < 128 := hseven _ (List.getElem_mem hj)
    apply BitVec.eq_of_toNat_eq
    simp [syncValues, hj]
    omega

/-- The bytes of twelve seven-bit values are read back as these values. -/
theorem syncValues_of_bytes (cols : Vector (BitVec 7) 12) :
    syncValues (cols.toList.map (·.zeroExtend 8)) = cols := by
  ext j hj
  simp [syncValues]

/-- The bytes of seven-bit values lie below 128. -/
theorem toNat_lt_of_mem_sevenBit {cols : List (BitVec 7)} {b : Byte} (h : b ∈ cols.map (·.zeroExtend 8)) :
    b.toNat < 128 := by
  obtain ⟨v, _, rfl⟩ := List.mem_map.1 h
  rw [BitVec.toNat_setWidth_of_le (by decide)]
  exact v.isLt

/-! ### The two round trips -/

/-- The row of a well-framed operation and payload is well formed, and its encoding is their frame. -/
theorem frameRow_wellFormed_encode (h : wellFramed op p = true) :
    WellFormed (frameRow op p) = true ∧ encode (frameRow op p) = .wire (frameBytes op p) := by
  by_cases hrow : hasOwnRow op p = true
  · obtain rfl | ⟨rfl, hlen, hseven⟩ | ⟨rfl, rfl⟩ | ⟨rfl, rfl⟩ := hasOwnRow_iff.1 hrow
    · rw [frameRow_map]
      exact ⟨h, rfl⟩
    · rw [frameRow_sync hlen hseven, encode, syncValues_bytes hlen hseven]
      exact ⟨rfl, rfl⟩
    · rw [frameRow_factoryReset]
      exact ⟨rfl, rfl⟩
    · rw [frameRow_mapRequest]
      exact ⟨rfl, rfl⟩
  · have hrow' : hasOwnRow op p = false := Bool.eq_false_iff.2 hrow
    rw [frameRow_other hrow']
    exact ⟨by simp [WellFormed, h, hrow'], rfl⟩

/-- The frame that a well-formed instruction encodes to belongs to the row of that instruction. -/
theorem frameRow_of_encode (hwf : WellFormed i = true) (h : encode i = .wire (frameBytes op p)) :
    frameRow op p = i := by
  have hframe {o : Byte} {q : List Byte} (he : encode i = .wire (frameBytes o q)) : o = op ∧ q = p :=
    frameBytes_inj (Request.wire.inj (he.symm.trans h))
  cases i with
  | syncFrame cols =>
    obtain ⟨rfl, rfl⟩ := hframe rfl
    rw [frameRow_sync (by simp) fun b hb => toNat_lt_of_mem_sevenBit hb, syncValues_of_bytes]
  | factoryResetFrame =>
    obtain ⟨rfl, rfl⟩ := hframe rfl
    exact frameRow_factoryReset
  | mapRequestFrame =>
    obtain ⟨rfl, rfl⟩ := hframe rfl
    exact frameRow_mapRequest
  | mapResponseFrame payload =>
    obtain ⟨rfl, rfl⟩ := hframe rfl
    exact frameRow_map payload
  | otherValidFrame o payload =>
    obtain ⟨rfl, rfl⟩ := hframe rfl
    exact frameRow_other (by simpa using (Bool.and_eq_true_iff.1 hwf).2)
  | _ => cases h

theorem decodeFrame_of_encode (hwf : WellFormed i = true) (h : encode i = .wire bytes) :
    decodeFrame bytes = .ok i := by
  obtain ⟨op, p, hwell, rfl⟩ := encode_wire_wellFramed hwf h
  rw [decodeFrame_frameBytes hwell, frameRow_of_encode hwf h]

theorem decodeCommand_of_encode {w : CmdWord} (h : encode i = .command w) : decodeCommand w = i := by
  cases i with
  | nop => cases h; exact decodeCommand_nop (cmdOp_packCmd 0 0 0)
  | feed b => cases h; exact decodeCommand_packCmd_feed 0 b
  | sync states => cases h; exact decodeCommand_packCmd_sync states 0
  | emitFactoryReset => cases h; exact decodeCommand_emitFactoryReset (cmdOp_packCmd 0 0 3)
  | emitMapRequest => cases h; exact decodeCommand_emitMapRequest (cmdOp_packCmd 0 0 4)
  | lookup note => cases h; exact decodeCommand_packCmd_lookup 0 note
  | reset => cases h; exact decodeCommand_reset (cmdOp_packCmd 0 0 6)
  | reserved => cases h; exact decodeCommand_reserved (cmdOp_packCmd 0 0 7)
  | _ => cases h

/-! ### The obligations -/

/-- Settles O33, by the two levels of requests: a command word, whose fields are read back, and a wire frame, which
belongs to the row of its instruction. -/
theorem decodeOfEncodeIsTheInstruction : Obligations.DecodeOfEncodeIsTheInstruction := by
  intro i hwf
  cases h : encode i with
  | command w => rw [decode, decodeCommand_of_encode h]
  | wire bytes => rw [decode, decodeFrame_of_encode hwf h]

/-- Settles O34: what the decoder takes is the frame of a well-framed operation and payload, and their row encodes to
that frame. -/
theorem decodedFrameEncodesBack : Obligations.DecodedFrameEncodesBack := by
  intro bytes i h
  obtain ⟨op, p, hwell, rfl, rfl⟩ := decodeFrame_eq_ok_iff.1 h
  exact frameRow_wellFormed_encode hwell

end Sys2Proof
end

section
/-! PROOFS. The frames that cross the block: the columns of the sync payload in closed form (spec/41_tx_encoder.md R150,
R151), the emitted frames as frames of the dialect (spec/30_encoding.md R62 to R65), and the reception of a frame as the
FEEDs of its bytes (R79). -/

namespace Sys2Proof

open Config

/-! ### Numbers written in bits -/

/-- The number whose bit k is `f k` for k below n, and whose other bits are 0. -/
def bitSum (f : Nat → Bool) (n : Nat) : Nat := ∑ k ∈ Finset.range n, (f k).toNat * 2 ^ k

@[simp] theorem bitSum_zero (f : Nat → Bool) : bitSum f 0 = 0 := rfl

theorem bitSum_succ (f : Nat → Bool) (n : Nat) :
    bitSum f (n + 1) = bitSum f n + (f n).toNat * 2 ^ n := Finset.sum_range_succ _ n

theorem bitSum_lt (f : Nat → Bool) (n : Nat) : bitSum f n < 2 ^ n := by
  induction n with
  | zero => simp
  | succ n ih =>
    have hbit : (f n).toNat * 2 ^ n ≤ 1 * 2 ^ n := Nat.mul_le_mul_right _ (Bool.toNat_le (f n))
    rw [bitSum_succ, Nat.pow_succ]
    omega

theorem testBit_bitSum {f : Nat → Bool} {n j : Nat} (hj : j < n) : (bitSum f n).testBit j = f j := by
  induction n with
  | zero => omega
  | succ n ih =>
    rw [bitSum_succ, Nat.add_comm, Nat.mul_comm, Nat.testBit_two_pow_mul_add _ (bitSum_lt f n)]
    split
    · rename_i hlt
      exact ih hlt
    · have : j = n := by omega
      subst this
      cases f j <;> simp

namespace Machine

variable (m : Mask) (states : Buttons) (c : Nat)

/-! ### The columns of the sync payload -/

/-- The first slots of a column, up to slot 6, go to lo alone, one bit each (41_tx_encoder.md R150). -/
theorem foldl_packSlot_low {n : Nat} (hn : n ≤ 6) :
    (List.range n).foldl (packSlot m states c) { lo := 0, hi := 0, e := 0 } =
      { lo := bitSum (slotOff m states c) n, hi := 0, e := n } := by
  induction n with
  | zero => rfl
  | succ n ih =>
    rw [List.range_succ, List.foldl_append, ih (by omega), bitSum_succ]
    simp [packSlot, show n ≤ 6 by omega, show n ≠ 6 by omega]

/-- The exponent starts again after slot 6, and the slots from 7 on go to hi alone (41_tx_encoder.md R150). -/
theorem foldl_packSlot_high (n : Nat) :
    (List.range (7 + n)).foldl (packSlot m states c) { lo := 0, hi := 0, e := 0 } =
      { lo := bitSum (slotOff m states c) 7
        hi := bitSum (fun k => slotOff m states c (7 + k)) n
        e := n } := by
  induction n with
  | zero =>
    rw [List.range_succ, List.foldl_append, foldl_packSlot_low m states c le_rfl]
    simp [packSlot, bitSum_succ]
  | succ n ih =>
    rw [← Nat.add_assoc, List.range_succ, List.foldl_append, ih, bitSum_succ _ n]
    simp [packSlot, show ¬7 + n ≤ 6 by omega, show 7 + n ≠ 6 by omega]

/-- The closed form of a column (41_tx_encoder.md R151). -/
theorem packColumn_eq :
    packColumn m states c =
      { lo := bitSum (slotOff m states c) 7
        hi := bitSum (fun k => slotOff m states c (7 + k)) 7
        e := 7 } := foldl_packSlot_high m states c 7

theorem packColumn_lo_lt : (packColumn m states c).lo < 128 := by
  rw [packColumn_eq]
  exact bitSum_lt _ 7

theorem packColumn_hi_lt : (packColumn m states c).hi < 128 := by
  rw [packColumn_eq]
  exact bitSum_lt (fun k => slotOff m states c (7 + k)) 7

variable {c} {k : Nat}

/-- Slots 0 to 6 are the bits of lo. -/
theorem testBit_packColumn_lo (hk : k < 7) :
    (packColumn m states c).lo.testBit k = slotOff m states c k := by
  rw [packColumn_eq]
  exact testBit_bitSum hk

/-- Slots 7 to 13 are the bits of hi. -/
theorem testBit_packColumn_hi (hk : k < 7) :
    (packColumn m states c).hi.testBit k = slotOff m states c (7 + k) := by
  rw [packColumn_eq]
  exact testBit_bitSum (f := fun k => slotOff m states c (7 + k)) hk

/-- Byte 2c of the sync payload is LL_c (20_memory.md R44). -/
theorem syncPayload_getD_lo (hc : c < nCols) :
    (syncPayload m states).getD (2 * c) 0 = BitVec.ofNat 8 (packColumn m states c).lo := by
  simp only [nCols] at hc
  interval_cases c <;> rfl

/-- Byte 2c + 1 of the sync payload is HH_c (20_memory.md R44). -/
theorem syncPayload_getD_hi (hc : c < nCols) :
    (syncPayload m states).getD (2 * c + 1) 0 = BitVec.ofNat 8 (packColumn m states c).hi := by
  simp only [nCols] at hc
  interval_cases c <;> rfl

/-- Every byte of the sync payload is a seven-bit value (30_encoding.md R62). -/
theorem toNat_lt_of_mem_syncPayload {b : Byte} (hb : b ∈ syncPayload m states) : b.toNat < 128 := by
  obtain ⟨c, _, hb⟩ := List.mem_flatMap.1 hb
  have hlo := packColumn_lo_lt m states c
  have hhi := packColumn_hi_lt m states c
  obtain rfl | rfl : b = _ ∨ b = _ := by simpa using hb
  · rw [BitVec.toNat_ofNat]; omega
  · rw [BitVec.toNat_ofNat]; omega

/-- Slot k of column c is bit k mod 7 of the payload byte 2c + k / 7 (41_tx_encoder.md R151). -/
theorem getLsbD_syncPayload (hc : c < nCols) (hk : k < nSlots) :
    ((syncPayload m states).getD (2 * c + k / 7) 0).getLsbD (k % 7) = slotOff m states c k := by
  have hmod : k % 7 < 7 := Nat.mod_lt _ (by decide)
  have hmod8 : k % 7 < 8 := by omega
  rcases Nat.lt_or_ge k 7 with hlow | hhigh
  · have hdiv : k / 7 = 0 := Nat.div_eq_of_lt hlow
    rw [hdiv, Nat.add_zero, syncPayload_getD_lo m states hc, BitVec.getLsbD_ofNat,
      testBit_packColumn_lo m states hmod, decide_eq_true hmod8, Bool.true_and, Nat.mod_eq_of_lt hlow]
  · have hdiv : k / 7 = 1 := by simp only [nSlots] at hk; omega
    rw [hdiv, syncPayload_getD_hi m states hc, BitVec.getLsbD_ofNat, testBit_packColumn_hi m states hmod]
    rw [decide_eq_true hmod8, Bool.true_and, show 7 + k % 7 = k by omega]

/-- The sync frame that the block emits belongs to the sync row. -/
theorem decodeFrame_syncFrameOf :
    decodeFrame (syncFrameOf m states) = .ok (.syncFrame (syncValues (syncPayload m states))) := by
  have hseven : ∀ b ∈ syncPayload m states, b.toNat < 128 :=
    fun b hb => toNat_lt_of_mem_syncPayload m states hb
  have hbound := le_maxFrame
  have hwell : wellFramed opSync (syncPayload m states) = true :=
    wellFramed_iff.2 ⟨by decide, fun b hb => plainByte_of_lt (hseven b hb),
      by rw [syncPayload_length]; omega⟩
  rw [syncFrameOf, decodeFrame_frameBytes hwell, frameRow_sync (syncPayload_length m states) hseven]

/-- Bit k mod 7 of value 2c + k / 7 of the emitted sync frame is slot k of column c. -/
theorem syncValues_syncPayload_bit (hc : c < nCols) (hk : k < nSlots) :
    (syncValues (syncPayload m states))[2 * c + k / 7]?.map (·.getLsbD (k % 7)) =
      some (slotOff m states c k) := by
  have hmod : k % 7 < 7 := Nat.mod_lt _ (by decide)
  have hj : 2 * c + k / 7 < 12 := by simp only [nCols, nSlots] at hc hk; omega
  have hbit := getLsbD_syncPayload m states hc hk
  rw [Vector.getElem?_eq_getElem hj, Option.map_some, syncValues, Vector.getElem_ofFn,
    BitVec.truncate_eq_setWidth, BitVec.getLsbD_setWidth, hbit, decide_eq_true hmod, Bool.true_and]

/-! ### Frames and their FEEDs -/

section feeds

variable {s : State} {rest : List Request} {i : Instr}

/-- The FEED command of a byte, at the head of the stream, is performed. -/
theorem step_feed_command {b : Byte} (h : s.inbox = encode (.feed b) :: rest) :
    step s = exec (.feed b) { s with inbox := rest } :=
  step_of_fetch (by rw [h, encode, fetch_command, decodeCommand_packCmd_feed])

/-- A run performs one step, and then the steps that are left. -/
theorem run_succ_of_step {t : State} (h : step s = .next t) (n : Nat) :
    Host.Core.run Sys2Proof.core (n + 1) s = Host.Core.run Sys2Proof.core n t := by
  have hcore : Sys2Proof.core.step s = .next t := h
  simp only [Host.Core.run, hcore]

/-- Receiving a byte and then the others is receiving them all. -/
theorem State.receive_cons (s : State) (b : Byte) (more : List Byte) :
    s.receive (b :: more) =
      State.receive
        { s with
          block := (feedByte maxFrame b s.block).1
          outbox := s.outbox ++ [(feedByte maxFrame b s.block).2] } more := by
  simp [State.receive, State.answer]

/-- Running the FEED commands of a run of bytes leaves what feeding the bytes at once leaves. -/
theorem run_feed_commands (bytes : List Byte) (s : State) (rest : List Request) :
    Host.Core.run Sys2Proof.core bytes.length
        { s with inbox := bytes.map (fun b => encode (.feed b)) ++ rest } =
      State.receive { s with inbox := rest } bytes := by
  induction bytes generalizing s with
  | nil => exact (State.receive_next_iff.2 (by simp)).symm
  | cons b more ih =>
    have hstep := step_feed_command (b := b)
      (s := { s with inbox := encode (.feed b) :: (more.map (fun b => encode (.feed b)) ++ rest) }) rfl
    have hmore := ih
      { s with
        block := (feedByte maxFrame b s.block).1
        outbox := s.outbox ++ [(feedByte maxFrame b s.block).2] }
    have hcons := State.receive_cons { s with inbox := rest } b more
    exact (run_succ_of_step hstep more.length).trans (hmore.trans hcons.symm)

/-- A command gives one response and leaves the stream of requests alone. -/
theorem exec_command {w : CmdWord} (h : encode i = .command w) (s : State) :
    ∃ t r, exec i s = .next t ∧ t.inbox = s.inbox ∧ t.outbox = s.outbox ++ [r] := by
  cases i with
  | nop | feed | sync | emitFactoryReset | emitMapRequest | lookup | reset | reserved =>
    exact ⟨_, _, rfl, rfl, rfl⟩
  | _ => cases h

/-- Every instruction answers a next state, with a response for the command or for each byte of the frame. -/
theorem exec_completes (i : Instr) (s : State) :
    ∃ t rs, exec i s = .next t ∧ t.inbox = s.inbox ∧ t.outbox = s.outbox ++ rs ∧
      rs.length = match encode i with | .command _ => 1 | .wire bytes => bytes.length := by
  cases h : encode i with
  | command w =>
    obtain ⟨t, r, hexec, hin, hout⟩ := exec_command h s
    exact ⟨t, [r], hexec, hin, hout, rfl⟩
  | wire bytes => exact ⟨_, _, exec_frame s h, rfl, rfl, feedBytes_length bytes s.block⟩

/-- Every step answers a next state. -/
theorem step_completes (s : State) : ∃ t, step s = .next t := by
  cases h : fetch s.inbox with
  | none => exact ⟨s, by rw [step, h]⟩
  | some next =>
    obtain ⟨t, _, hexec, _⟩ := exec_completes next.1 { s with inbox := next.2 }
    exact ⟨t, (step_of_fetch h).trans hexec⟩

end feeds

/-! ### The obligations -/

/-- Settles O27, by the run of the FEED commands: the meaning of a wire frame is the FEEDs of its bytes. -/
theorem wireFrameEqualsItsFeeds : Obligations.WireFrameEqualsItsFeeds := by
  intro s i bytes rest h
  rw [run_feed_commands, exec_frame _ h]

/-- Settles O29: the payload of an emitted sync frame is twelve seven-bit values, whose bits are the slots; the other
two frames are the frames of their rows. -/
theorem emittedFramesAreFramesOfTheDialect : Obligations.EmittedFramesAreFramesOfTheDialect := by
  refine ⟨fun s states => ?_, fun s => ⟨_, rfl, ?_⟩, fun s => ⟨_, rfl, ?_⟩⟩
  · have hdecode := decodeFrame_syncFrameOf mask states
    exact ⟨syncFrameOf mask states, syncValues (syncPayload mask states), rfl, hdecode,
      (decodedFrameEncodesBack _ _ hdecode).2,
      fun c k hc hk => syncValues_syncPayload_bit mask states hc hk⟩
  · exact decodeFrame_of_encode (i := .factoryResetFrame) rfl rfl
  · exact decodeFrame_of_encode (i := .mapRequestFrame) rfl rfl

/-- Settles O38, from the completion of each instruction. -/
theorem everyInstructionCompletesWithItsResponses :
    Obligations.EveryInstructionCompletesWithItsResponses :=
  ⟨exec_completes, step_completes⟩

end Machine

end Sys2Proof
end

section
/-! PROOFS. ParseFrame, and the end marker that closes a frame (spec/40_rx_decoder.md R100 to R107): which check of R102
gives the reason, what the response of EndFrame tells, and the two kinds of valid frame. -/

namespace Sys2Proof.Machine

open Config

/-! ### ParseFrame (40_rx_decoder.md R102) -/

/-- What each reason of ParseFrame says of the bytes and the overflow bit: its own check fails, and those before it in
the order of R102 do not. NO_START is no reason of ParseFrame. -/
def FailsFirst (f : List Byte) (o : Bool) : Reason → Prop
  | .noStart => False
  | .overflow => o = true
  | .short => o = false ∧ f.length < 7
  | .badStart => o = false ∧ 7 ≤ f.length ∧ f[0]? ≠ some sox
  | .header => o = false ∧ 7 ≤ f.length ∧ f[0]? = some sox ∧ (f.drop 1).take 3 ≠ [hdr1, hdr2, hdr3]
  | .device => o = false ∧ 7 ≤ f.length ∧ f.take 4 = [sox, hdr1, hdr2, hdr3] ∧ f[4]? ≠ some devId
  | .badEnd =>
    o = false ∧ 7 ≤ f.length ∧ f.take 5 = [sox, hdr1, hdr2, hdr3, devId] ∧ f.getLast? ≠ some eox

section parse

variable {f : List Byte} {o : Bool}

theorem header_iff :
    (f.drop 1).take 3 = [hdr1, hdr2, hdr3] ↔
      f[1]? = some hdr1 ∧ f[2]? = some hdr2 ∧ f[3]? = some hdr3 := by
  rcases f with _ | ⟨_, _ | ⟨_, _ | ⟨_, _ | ⟨_, _⟩⟩⟩⟩ <;> simp

theorem header_ne_iff :
    (f.drop 1).take 3 ≠ [hdr1, hdr2, hdr3] ↔
      f[1]? ≠ some hdr1 ∨ f[2]? ≠ some hdr2 ∨ f[3]? ≠ some hdr3 := by
  rw [ne_eq, header_iff, not_and_or, not_and_or]

theorem take_four_iff :
    f.take 4 = [sox, hdr1, hdr2, hdr3] ↔
      f[0]? = some sox ∧ (f.drop 1).take 3 = [hdr1, hdr2, hdr3] := by
  cases f <;> simp

theorem take_five_iff :
    f.take 5 = [sox, hdr1, hdr2, hdr3, devId] ↔
      f.take 4 = [sox, hdr1, hdr2, hdr3] ∧ f[4]? = some devId := by
  rcases f with _ | ⟨_, _ | ⟨_, _ | ⟨_, _ | ⟨_, _ | ⟨_, _⟩⟩⟩⟩⟩ <;> simp [and_assoc]

/-- ParseFrame reports the first check that fails. -/
theorem parseFrame_eq_invalid_iff {r : Reason} :
    parseFrame f o = .invalid r ↔ FailsFirst f o r := by
  constructor
  · intro h
    unfold parseFrame at h
    split_ifs at h with hovf hshort hsox hhdr hdev heox <;> cases h
    · exact hovf
    · exact ⟨Bool.eq_false_iff.2 hovf, hshort⟩
    · exact ⟨Bool.eq_false_iff.2 hovf, not_lt.1 hshort, hsox⟩
    · exact ⟨Bool.eq_false_iff.2 hovf, not_lt.1 hshort, not_not.1 hsox, header_ne_iff.2 hhdr⟩
    · have hfour := take_four_iff.2 ⟨not_not.1 hsox, not_not.1 (mt header_ne_iff.1 hhdr)⟩
      exact ⟨Bool.eq_false_iff.2 hovf, not_lt.1 hshort, hfour, hdev⟩
    · have hfour := take_four_iff.2 ⟨not_not.1 hsox, not_not.1 (mt header_ne_iff.1 hhdr)⟩
      have hfive := take_five_iff.2 ⟨hfour, not_not.1 hdev⟩
      exact ⟨Bool.eq_false_iff.2 hovf, not_lt.1 hshort, hfive, List.getLast?_eq_getElem? ▸ heox⟩
  · intro h
    unfold parseFrame
    cases r with
    | noStart => exact h.elim
    | overflow => exact if_pos h
    | short =>
      obtain ⟨rfl, hshort⟩ := h
      simp [hshort]
    | badStart =>
      obtain ⟨rfl, hlen, hsox⟩ := h
      simp [hlen.not_gt, hsox]
    | header =>
      obtain ⟨rfl, hlen, hsox, hhdr⟩ := h
      simp only [hlen.not_gt, hsox, header_ne_iff.1 hhdr, Bool.false_eq_true, ne_eq, not_true_eq_false,
        if_false, if_true]
    | device =>
      obtain ⟨rfl, hlen, hfour, hdev⟩ := h
      obtain ⟨hsox, hhdr⟩ := take_four_iff.1 hfour
      obtain ⟨h1, h2, h3⟩ := header_iff.1 hhdr
      simp [hlen.not_gt, hsox, h1, h2, h3, hdev]
    | badEnd =>
      obtain ⟨rfl, hlen, hfive, heox⟩ := h
      obtain ⟨hfour, hdev⟩ := take_five_iff.1 hfive
      obtain ⟨hsox, hhdr⟩ := take_four_iff.1 hfour
      obtain ⟨h1, h2, h3⟩ := header_iff.1 hhdr
      rw [List.getLast?_eq_getElem?] at heox
      simp [hlen.not_gt, hsox, h1, h2, h3, hdev, heox]

/-- A frame passes every check, so that none fails first. -/
theorem not_failsFirst_frameBytes (op : Byte) (p : List Byte) (r : Reason) :
    ¬ FailsFirst (frameBytes op p) false r := by
  cases r with
  | badEnd => exact fun hfail => hfail.2.2.2 List.getLast?_concat
  | _ => simp [FailsFirst, frameBytes]

/-- ParseFrame accepts exactly the frames of the dialect, and reads their operation and payload. -/
theorem parseFrame_eq_valid_iff {op : Byte} {p : List Byte} :
    parseFrame f o = .valid op p ↔ o = false ∧ f = frameBytes op p := by
  constructor
  · intro h
    obtain ⟨rfl, rfl⟩ := parseFrame_valid h
    unfold parseFrame at h
    split_ifs at h with hovf hshort hsox hhdr hdev heox
    obtain ⟨h1, h2, h3⟩ : f[1]? = some hdr1 ∧ f[2]? = some hdr2 ∧ f[3]? = some hdr3 := by
      simpa only [not_or, not_not] using hhdr
    exact ⟨Bool.eq_false_iff.2 hovf, eq_frameBytes_of_fixed (not_lt.1 hshort) (not_not.1 hsox) h1 h2
      h3 (not_not.1 hdev) (not_not.1 heox)⟩
  · rintro ⟨rfl, rfl⟩
    cases h : parseFrame (frameBytes op p) false with
    | invalid r => exact absurd (parseFrame_eq_invalid_iff.1 h) (not_failsFirst_frameBytes op p r)
    | valid op' p' =>
      obtain ⟨hop, hp⟩ := parseFrame_valid h
      rw [hop, hp, framePayload_frameBytes]
      rfl

end parse

/-! ### EndFrame (40_rx_decoder.md R101) -/

section endFrame

variable {k : Block} {s : State} {op : Byte} {p : List Byte}

/-- An end marker returns the RX registers to IDLE whatever the frame holds (R101). -/
theorem endFrame_closes (k : Block) :
    (endFrame k).1.rxMode = .idle ∧ (endFrame k).1.rxBuf = [] ∧ (endFrame k).1.rxOvf = false := by
  obtain hend | ⟨_, hend⟩ := endFrame_block_cases k <;> rw [hend] <;> exact ⟨rfl, rfl, rfl⟩

/-- EndFrame emits no frame and gives no id. -/
theorem endFrame_emits_nothing (k : Block) :
    (endFrame k).2.txFrame = none ∧ (endFrame k).2.lk = none := by
  obtain ⟨_, _, hend⟩ | ⟨_, _, _, ⟨_, hend⟩ | ⟨_, _, hend⟩ | ⟨_, _, hend⟩⟩ := endFrame_cases k <;>
    rw [hend] <;> exact ⟨rfl, rfl⟩

/-- INVALID_FRAME carries no event and leaves the map as it was (R106). -/
theorem endFrame_invalid (h : (endFrame k).2.status = 1) :
    (endFrame k).2.rxEvt = none ∧ k.SameMap (endFrame k).1 := by
  obtain ⟨_, _, hend⟩ | ⟨_, _, _, ⟨_, hend⟩ | ⟨_, _, hend⟩ | ⟨_, _, hend⟩⟩ := endFrame_cases k <;>
    rw [hend] at h ⊢
  · exact ⟨rfl, rfl, rfl⟩
  · exact absurd (show (0 : BitVec 3) = 1 from h) (by decide)
  · exact absurd (show (2 : BitVec 3) = 1 from h) (by decide)
  · exact absurd (show (0 : BitVec 3) = 1 from h) (by decide)

/-- A buffer that the end marker completes to a frame is delivered (R103). -/
theorem endFrame_of_frame (hovf : k.rxOvf = false) (hbuf : k.rxBuf ++ [eox] = frameBytes op p) :
    endFrame k = deliver op p k.closeFrame := by
  rw [endFrame, parseFrame_eq_valid_iff.2 ⟨hovf, hbuf⟩]

/-- In a block that meets INV1 to INV4 an open frame begins with its start marker and ends with its end marker, so that
START and END are no reasons of EndFrame (R107 a). -/
theorem Block.RxInv.endFrame_reason {r : Reason} (h : k.RxInv) (hacc : k.rxMode = .acc)
    (hr : parseFrame (k.rxBuf ++ [eox]) k.rxOvf = .invalid r) :
    reasonCode r ∈ ([1, 2, 3, 4, 5] : List (BitVec 3)) := by
  have hsox : (k.rxBuf ++ [eox])[0]? = some sox := by
    rw [← List.head?_eq_getElem?, List.head?_append, (h.acc_opened hacc).1, Option.some_or]
  have hfail := parseFrame_eq_invalid_iff.1 hr
  cases r with
  | badStart => exact absurd hsox hfail.2.2
  | badEnd => exact absurd List.getLast?_concat hfail.2.2.2
  | noStart | overflow | short | header | device => decide

/-- FEED of the end marker of an open frame. -/
theorem exec_feed_eox_acc (h : s.block.rxMode = .acc) :
    exec (.feed eox) s = s.answer (endFrame s.block).1 [(endFrame s.block).2] := by
  rw [exec_feed, feedByte_eox_acc h]

/-- FEED of the end marker that completes a frame delivers it. -/
theorem exec_feed_eox_of_frame (hacc : s.block.rxMode = .acc) (hovf : s.block.rxOvf = false)
    (hbuf : s.block.rxBuf = [sox, hdr1, hdr2, hdr3, devId, op] ++ p) :
    exec (.feed eox) s =
      s.answer (deliver op p s.block.closeFrame).1 [(deliver op p s.block.closeFrame).2] := by
  rw [exec_feed_eox_acc hacc, endFrame_of_frame hovf (congrArg (· ++ [eox]) hbuf)]

end endFrame

/-! ### The obligations -/

/-- Settles O15: each reason is the first check that fails, and a frame passes them all. -/
theorem parseFrameAcceptsExactlyTheDialect : Obligations.ParseFrameAcceptsExactlyTheDialect :=
  fun _ _ =>
    ⟨fun _ _ => parseFrame_eq_valid_iff, parseFrame_eq_invalid_iff, parseFrame_eq_invalid_iff,
      parseFrame_eq_invalid_iff, parseFrame_eq_invalid_iff, parseFrame_eq_invalid_iff,
      parseFrame_eq_invalid_iff, fun h => parseFrame_eq_invalid_iff.1 h, rfl⟩

/-- Settles O16, from what EndFrame does to the registers and what its response can carry. -/
theorem endMarkerClosesTheFrameWhateverItHolds :
    Obligations.EndMarkerClosesTheFrameWhateverItHolds := by
  intro s hacc
  obtain ⟨hmode, hbuf, hovf⟩ := endFrame_closes s.block
  obtain ⟨htx, hlk⟩ := endFrame_emits_nothing s.block
  exact ⟨_, (endFrame s.block).2, exec_feed_eox_acc hacc, rfl, rfl, rfl, hmode, hbuf, hovf, htx, hlk,
    endFrame_invalid⟩

/-- Settles O18: Deliver hands the payload to MapExtract, which takes it as the map or rejects it. -/
theorem mapFrameReplacesTheWholeMapOrNothing : Obligations.MapFrameReplacesTheWholeMapOrNothing := by
  intro s p hacc hovf hbuf
  have hexec := exec_feed_eox_of_frame (op := opMap) hacc hovf hbuf
  refine ⟨fun hlen => ⟨(s.block.closeFrame.writeMap p).mapNote,
    (s.block.closeFrame.holdsMapOf_writeMap hlen).notes, ?_⟩, fun hlen => ?_⟩
  · rw [deliver_map, mapExtract_of_eq hlen] at hexec
    exact hexec
  · rw [deliver_map, mapExtract_of_ne hlen] at hexec
    exact hexec

/-- Settles O20, from what FEED can do: an error of FEED is NO_START, or one that EndFrame reports. -/
theorem feedNeverReportsStartOrEnd : Obligations.FeedNeverReportsStartOrEnd := by
  intro s b hinv
  refine ⟨_, (feedByte maxFrame b s.block).2, exec_feed s b, rfl, ?_⟩
  obtain ⟨_, hf⟩ | ⟨_, _, hf⟩ | ⟨_, hacc, hf⟩ | ⟨_, _, _, hf⟩ | ⟨_, _, _, hf⟩ :=
    feedByte_cases maxFrame b s.block <;> rw [hf]
  · exact .inl rfl
  · exact .inr (.inr ⟨rfl, List.mem_cons_self⟩)
  · obtain ⟨r, hr, hend⟩ | ⟨_, _, _, ⟨_, hend⟩ | ⟨_, _, hend⟩ | ⟨_, _, hend⟩⟩ :=
      endFrame_cases s.block <;> rw [hend]
    · exact .inr (.inr ⟨rfl, hinv.1.endFrame_reason hacc hr⟩)
    · exact .inl rfl
    · exact .inr (.inl rfl)
    · exact .inl rfl
  · exact .inl rfl
  · exact .inl rfl

/-- Settles O14, by the equations of FEED for each kind of byte. -/
theorem feedFramesTheByteStream : Obligations.FeedFramesTheByteStream := by
  refine ⟨fun w hw => decodeCommand_feed hw, fun s b => ⟨?_, ?_, ?_, ?_, ?_⟩⟩
  · rintro rfl
    rw [exec_feed, feedByte_sox]
    rfl
  · rintro hidle rfl
    rw [exec_feed, feedByte_eox_idle hidle]
    rfl
  · intro hidle hs he
    rw [exec_feed, feedByte_idle hidle hs he]
    rfl
  · intro hacc hs he hroom
    rw [exec_feed, feedByte_acc hacc hs he, Block.takeByte_of_lt s.block b maxFrame hroom]
    rfl
  · intro hacc hs he hfull
    rw [exec_feed, feedByte_acc hacc hs he, Block.takeByte_of_le s.block b maxFrame hfull]
    rfl

/-- Settles O17: Deliver returns a frame of another operation. -/
theorem validFrameOfAnotherOperationIsReturned :
    Obligations.ValidFrameOfAnotherOperationIsReturned := by
  intro s op p hacc hovf hbuf hop
  rw [exec_feed_eox_of_frame hacc hovf hbuf, deliver_of_ne hop]
  rfl

end Sys2Proof.Machine
end

section
/-! PROOFS. FEED over a run of bytes (spec/40_rx_decoder.md R100 to R107): what an open frame has gathered, the frames
that are too long, the comparison with a plain buffer, and the frames received as one instruction (R104, R105). -/

namespace Sys2Proof.Machine

open Config

variable {bound : Nat} {b op : Byte} {k k' : Block} {buf body p : List Byte}

/-! ### What an open frame holds of the bytes fed since its start marker -/

/-- The frame is open, and `buf` is all that was fed since its start marker, that marker included: rx_buf holds as much
of it as there is room for, and rx_ovf says whether that is not all (40_rx_decoder.md R100). -/
structure Block.Gathers (bound : Nat) (k : Block) (buf : List Byte) : Prop where
  acc : k.rxMode = .acc
  rxBuf_eq : k.rxBuf = buf.take (bound - 1)
  rxOvf_eq : k.rxOvf = decide (bound < buf.length + 1)

theorem Block.gathers_openFrame (hbound : 2 ≤ bound) (k : Block) : k.openFrame.Gathers bound [sox] where
  acc := rfl
  rxBuf_eq := (List.take_of_length_le (l := [sox]) (by rw [List.length_singleton]; omega)).symm
  rxOvf_eq := (decide_eq_false (by rw [List.length_singleton]; omega)).symm

theorem Block.Gathers.takeByte (h : k.Gathers bound buf) (b : Byte) :
    (k.takeByte bound b).Gathers bound (buf ++ [b]) := by
  have hlen : k.rxBuf.length = min (bound - 1) buf.length := by rw [h.rxBuf_eq, List.length_take]
  rcases Nat.lt_or_ge buf.length (bound - 1) with hroom | hfull
  · rw [Block.takeByte_of_lt k b bound (by omega)]
    refine ⟨h.acc, ?_, ?_⟩
    · rw [h.rxBuf_eq, List.take_of_length_le hroom.le,
        List.take_of_length_le (by rw [List.length_append, List.length_singleton]; omega)]
    · rw [h.rxOvf_eq, List.length_append, List.length_singleton]
      exact decide_eq_decide.2 (by omega)
  · rw [Block.takeByte_of_le k b bound (by omega)]
    refine ⟨h.acc, ?_, ?_⟩
    · rw [h.rxBuf_eq, List.take_append_of_le_length hfull]
    · rw [List.length_append, List.length_singleton]
      exact (decide_eq_true (by omega)).symm

/-- The overflow bit alone decides the first check (40_rx_decoder.md R102). -/
theorem parseFrame_of_overflow (f : List Byte) : parseFrame f true = .invalid .overflow := if_pos rfl

/-- ParseFrame judges what rx_buf and rx_ovf have kept as it would judge the whole frame. -/
theorem Block.Gathers.parseFrame_eq (h : k.Gathers bound buf) :
    parseFrame (k.rxBuf ++ [eox]) k.rxOvf =
      parseFrame (buf ++ [eox]) (decide (bound < buf.length + 1)) := by
  rw [h.rxBuf_eq, h.rxOvf_eq]
  rcases Nat.lt_or_ge bound (buf.length + 1) with hlong | hfits
  · rw [decide_eq_true hlong, parseFrame_of_overflow, parseFrame_of_overflow]
  · rw [List.take_of_length_le (by omega)]

/-! ### The bytes of one frame -/

/-- Ordinary bytes of an open frame are gathered; each is answered by the default, and the map stays. -/
theorem Block.Gathers.feedBytes_plain (h : k.Gathers bound buf) (hbody : ∀ b ∈ body, plainByte b = true) :
    ∃ k', k'.Gathers bound (buf ++ body) ∧ k.SameMap k' ∧
      feedBytes bound body k = (k', List.replicate body.length Response.ok) := by
  induction body generalizing k buf with
  | nil => exact ⟨k, by rwa [List.append_nil], ⟨rfl, rfl⟩, rfl⟩
  | cons b more ih =>
    obtain ⟨hb, hmore⟩ := List.forall_mem_cons.1 hbody
    obtain ⟨hs, he⟩ := plainByte_iff.1 hb
    obtain ⟨k', hgathers, hmap, hfeed⟩ := ih (h.takeByte b) hmore
    refine ⟨k', by rwa [List.append_assoc] at hgathers,
      ⟨hmap.1.trans (k.takeByte_mapValid b bound), hmap.2.trans (k.takeByte_mapNote b bound)⟩, ?_⟩
    rw [feedBytes_cons, feedByte_acc h.acc hs he, hfeed, List.length_cons, List.replicate_succ]

/-- A start marker, a body without markers and an end marker: the body is gathered from any state, every byte but the
last is answered by the default, and the last by EndFrame. -/
theorem feedBytes_marked (hbound : 2 ≤ bound) (k : Block) (hbody : ∀ b ∈ body, plainByte b = true) :
    ∃ k', k'.Gathers bound (sox :: body) ∧ k.SameMap k' ∧
      feedBytes bound (sox :: body ++ [eox]) k =
        ((endFrame k').1, List.replicate (body.length + 1) Response.ok ++ [(endFrame k').2]) := by
  obtain ⟨k', hgathers, hmap, hfeed⟩ := (k.gathers_openFrame hbound).feedBytes_plain hbody
  refine ⟨k', hgathers, hmap, ?_⟩
  rw [List.cons_append, feedBytes_cons, feedByte_sox, feedBytes_append, hfeed, feedBytes_cons,
    feedBytes_nil, feedByte_eox_acc hgathers.acc]
  rfl

/-- What closing a frame leaves depends on the map alone. -/
theorem Block.SameMap.closeFrame_eq (h : k.SameMap k') : k'.closeFrame = k.closeFrame := by
  rw [Block.closeFrame, Block.closeFrame, h.1, h.2]

/-- A frame whose operation and payload hold no marker and that fits in MAX_FRAME bytes is delivered from any state,
with its last byte (40_rx_decoder.md R103). -/
theorem feedBytes_frameBytes (h : wellFramed op p = true) (k : Block) :
    feedBytes maxFrame (frameBytes op p) k =
      ((deliver op p k.closeFrame).1,
        List.replicate (p.length + 6) Response.ok ++ [(deliver op p k.closeFrame).2]) := by
  obtain ⟨hop, hp, hlen⟩ := wellFramed_iff.1 h
  have hbound := le_maxFrame
  have hbody : ∀ b ∈ [hdr1, hdr2, hdr3, devId] ++ op :: p, plainByte b = true :=
    List.forall_mem_append.2 ⟨by decide, List.forall_mem_cons.2 ⟨hop, hp⟩⟩
  obtain ⟨k', hgathers, hmap, hfeed⟩ := feedBytes_marked (bound := maxFrame) (by omega) k hbody
  have hparse : parseFrame (k'.rxBuf ++ [eox]) k'.rxOvf = .valid op p := by
    rw [hgathers.parseFrame_eq]
    refine parseFrame_eq_valid_iff.2 ⟨decide_eq_false ?_, rfl⟩
    simp only [List.length_cons, List.length_append, List.length_nil]
    omega
  have hdeliver : endFrame k' = deliver op p k.closeFrame := by
    rw [endFrame, hparse, ← hmap.closeFrame_eq]
  rw [hdeliver] at hfeed
  exact hfeed

/-- The operation and the payload of a well-formed frame instruction hold no marker and fit in MAX_FRAME bytes. -/
theorem wellFramed_of_encode {i : Instr} (hwf : WellFormed i = true)
    (h : encode i = .wire (frameBytes op p)) : wellFramed op p = true := by
  obtain ⟨op', p', hwell, hbytes⟩ := encode_wire_wellFramed hwf h
  obtain ⟨rfl, rfl⟩ := frameBytes_inj hbytes
  exact hwell

/-- A well-formed frame instruction delivers its frame, and answers the default to every byte but the last. -/
theorem exec_of_frame {i : Instr} (hwf : WellFormed i = true)
    (h : encode i = .wire (frameBytes op p)) (s : State) :
    exec i s = s.answer (deliver op p s.block.closeFrame).1
      (List.replicate (p.length + 6) Response.ok ++ [(deliver op p s.block.closeFrame).2]) := by
  rw [exec_frame s h, State.receive, feedBytes_frameBytes (wellFramed_of_encode hwf h)]

/-- A well-formed frame of another operation than 11 is returned (40_rx_decoder.md R105). -/
theorem exec_of_other_frame {i : Instr} (hwf : WellFormed i = true)
    (h : encode i = .wire (frameBytes op p)) (hop : op ≠ opMap) (s : State) :
    exec i s = .next { s with
      block := s.block.closeFrame
      outbox := s.outbox ++ List.replicate (p.length + 6) Response.ok ++
        [Response.ok.emitRx op p mstNotMap] } := by
  rw [exec_of_frame hwf h, deliver_of_ne hop, State.answer, List.append_assoc]

/-- A well-formed map response of 128 bytes becomes the map (40_rx_decoder.md R104). -/
theorem exec_mapResponseFrame_of_eq (hwf : WellFormed (.mapResponseFrame p) = true)
    (hlen : p.length = mapPayloadLen) (s : State) :
    exec (.mapResponseFrame p) s = .next { s with
      block := s.block.closeFrame.writeMap p
      outbox := s.outbox ++ List.replicate 134 Response.ok ++
        [Response.ok.emitRx opMap p mstMapUpdated] } := by
  rw [exec_of_frame hwf rfl, deliver_map, mapExtract_of_eq hlen, State.answer, hlen, List.append_assoc]

/-- A well-formed map response of another length is rejected (40_rx_decoder.md R104). -/
theorem exec_mapResponseFrame_of_ne (hwf : WellFormed (.mapResponseFrame p) = true)
    (hlen : p.length ≠ mapPayloadLen) (s : State) :
    exec (.mapResponseFrame p) s = .next { s with
      block := s.block.closeFrame
      outbox := s.outbox ++ List.replicate (p.length + 6) Response.ok ++
        [(Response.ok.emitRx opMap p mstMapRejected).raise .invalidMapPayload] } := by
  rw [exec_of_frame hwf rfl, deliver_map, mapExtract_of_ne hlen, State.answer, List.append_assoc]

/-! ### OVERFLOW -/

/-- OVERFLOW is the only reason with info code 2 (60_exceptions.md R200). -/
theorem reasonCode_eq_two_iff : ∀ r : Reason, reasonCode r = 2 ↔ r = .overflow
  | .noStart | .overflow | .short | .header | .device | .badStart | .badEnd => by decide

/-- EndFrame reports INVALID_FRAME(OVERFLOW) exactly where rx_ovf is set. -/
theorem endFrame_overflow_iff (k : Block) :
    (endFrame k).2.status = 1 ∧ (endFrame k).2.info = 2 ↔ k.rxOvf = true := by
  obtain ⟨r, hparse, hend⟩ | ⟨op, p, hparse, hend⟩ := endFrame_cases k
  · have hovf : r = .overflow ↔ k.rxOvf = true := by
      rw [← Parsed.invalid.injEq r .overflow, ← hparse, parseFrame_eq_invalid_iff, FailsFirst]
    rw [hend, ← hovf, ← reasonCode_eq_two_iff]
    exact and_iff_right rfl
  · have hovf : k.rxOvf = false := (parseFrame_eq_valid_iff.1 hparse).1
    obtain ⟨_, hend⟩ | ⟨_, _, hend⟩ | ⟨_, _, hend⟩ := hend <;> rw [hend, hovf] <;>
      simp [statusCode]

/-! ### The block and the plain buffer -/

/-- What a result of ParseFrame tells, less its reason. -/
def Parsed.verdict : Parsed → Verdict
  | .invalid _ => .invalid
  | .valid op p => .frame op p

theorem endFrame_verdict (k : Block) :
    (endFrame k).2.verdict = (parseFrame (k.rxBuf ++ [eox]) k.rxOvf).verdict := by
  obtain ⟨_, hparse, hend⟩ | ⟨_, _, hparse, ⟨_, hend⟩ | ⟨rfl, _, hend⟩ | ⟨rfl, _, hend⟩⟩ :=
    endFrame_cases k <;> rw [hparse, hend] <;> rfl

/-- Bytes that do not begin with a start marker are no frame. -/
theorem parseFrame_verdict_of_no_start {f : List Byte} (h : f.head? ≠ some sox) (o : Bool) :
    (parseFrame f o).verdict = .invalid := by
  cases hparse : parseFrame f o with
  | invalid r => rfl
  | valid op p =>
    obtain ⟨_, rfl⟩ := parseFrame_eq_valid_iff.1 hparse
    exact absurd rfl h

@[simp] theorem plainFeed_sox (bound : Nat) (buf : List Byte) :
    plainFeed bound sox buf = ([sox], .silent) := if_pos rfl

theorem plainFeed_eox (bound : Nat) (buf : List Byte) :
    plainFeed bound eox buf =
      ([], (parseFrame (buf ++ [eox]) (decide (bound < buf.length + 1))).verdict) := by
  rw [plainFeed, if_neg eox_ne_sox, if_pos rfl]
  cases parseFrame (buf ++ [eox]) (decide (bound < buf.length + 1)) <;> rfl

theorem plainFeed_plain (bound : Nat) (buf : List Byte) (hs : b ≠ sox) (he : b ≠ eox) :
    plainFeed bound b buf = (buf ++ [b], .silent) := by
  rw [plainFeed, if_neg hs, if_neg he]

/-- How the block and the plain buffer correspond: the block is idle and the buffer holds no start of a frame, or the
block has the buffer's bytes as its open frame. -/
def Block.Tracks (bound : Nat) (k : Block) (buf : List Byte) : Prop :=
  (k.rxMode = .idle ∧ buf.head? ≠ some sox) ∨ k.Gathers bound buf

/-- A byte other than 240, appended to bytes that begin no frame, begins none. -/
theorem head?_append_ne_sox (h : buf.head? ≠ some sox) (hb : b ≠ sox) : (buf ++ [b]).head? ≠ some sox := by
  cases buf with
  | nil => simpa using hb
  | cons _ _ => exact h

/-- One byte keeps the correspondence, and the block and the plain buffer tell the same of it. -/
theorem Block.Tracks.feedByte_verdict (hbound : 2 ≤ bound) (h : k.Tracks bound buf) (b : Byte) :
    (feedByte bound b k).2.verdict = (plainFeed bound b buf).2 ∧
      (feedByte bound b k).1.Tracks bound (plainFeed bound b buf).1 := by
  by_cases hs : b = sox
  · subst hs
    rw [feedByte_sox, plainFeed_sox]
    exact ⟨rfl, .inr (k.gathers_openFrame hbound)⟩
  by_cases he : b = eox
  · subst he
    rw [plainFeed_eox]
    obtain ⟨hidle, hstart⟩ | hgathers := h
    · rw [feedByte_eox_idle hidle, parseFrame_verdict_of_no_start (head?_append_ne_sox hstart hs)]
      exact ⟨rfl, .inl ⟨hidle, by simp⟩⟩
    · rw [feedByte_eox_acc hgathers.acc, endFrame_verdict, hgathers.parseFrame_eq]
      exact ⟨rfl, .inl ⟨(endFrame_closes k).1, by simp⟩⟩
  · rw [plainFeed_plain bound buf hs he]
    obtain ⟨hidle, hstart⟩ | hgathers := h
    · rw [feedByte_idle hidle hs he]
      exact ⟨rfl, .inl ⟨hidle, head?_append_ne_sox hstart hs⟩⟩
    · rw [feedByte_acc hgathers.acc hs he]
      exact ⟨rfl, .inr (hgathers.takeByte b)⟩

theorem Block.Tracks.verdicts_eq (hbound : 2 ≤ bound) (bytes : List Byte) (h : k.Tracks bound buf) :
    (feedBytes bound bytes k).2.map Response.verdict = plainFeeds bound bytes buf := by
  induction bytes generalizing k buf with
  | nil => rfl
  | cons b more ih =>
    obtain ⟨hverdict, htracks⟩ := h.feedByte_verdict hbound b
    rw [feedBytes_cons, List.map_cons, hverdict, ih htracks, plainFeeds]

/-! ### The obligations -/

/-- Settles O21: the run is the reception of the bytes, whose last response is that of EndFrame on what was gathered. -/
theorem overflowExactlyWhenTheFrameIsTooLong : Obligations.OverflowExactlyWhenTheFrameIsTooLong := by
  intro s body hbody
  have hbound := le_maxFrame
  obtain ⟨k', hgathers, _, hfeed⟩ := feedBytes_marked (bound := maxFrame) (by omega) s.block
    fun b hb => plainByte_iff.2 (hbody b hb)
  have hrun := run_feed_commands (sox :: body ++ [eox]) s []
  have hlen : (sox :: body ++ [eox]).length = body.length + 2 := by simp
  rw [State.receive, hfeed, List.append_nil, hlen] at hrun
  refine ⟨_, (endFrame k').2, hrun, ?_, rfl, ?_⟩
  · rw [← List.append_assoc, List.getLast?_concat]
  · rw [endFrame_overflow_iff, hgathers.rxOvf_eq, decide_eq_true_iff, List.length_cons]

/-- Settles O22, by induction over the stream: an idle block and an empty plain buffer correspond, and every byte keeps
the correspondence. -/
theorem plainBufferDecoderTellsTheSame : Obligations.PlainBufferDecoderTellsTheSame := by
  intro bytes k hidle
  have hbound := le_maxFrame
  have hstart : k.Tracks maxFrame [] := .inl ⟨hidle, by simp⟩
  exact hstart.verdicts_eq (by omega) bytes

/-- Settles O25: each of the four rows is a well-formed frame of another operation than 11. -/
theorem receivedFrameIsReturnedAndChangesNoMap :
    Obligations.ReceivedFrameIsReturnedAndChangesNoMap := by
  intro s
  refine ⟨fun cols => ?_, ?_, ?_, fun op p hwf => ?_⟩
  · exact exec_of_other_frame (i := .syncFrame cols) rfl rfl (by decide) s
  · exact exec_of_other_frame (i := .factoryResetFrame) rfl rfl (by decide) s
  · exact exec_of_other_frame (i := .mapRequestFrame) rfl rfl (by decide) s
  · have hrow : hasOwnRow op p = false := by simpa using (Bool.and_eq_true_iff.1 hwf).2
    have hop : op ≠ opMap := fun hmap => by simp [hasOwnRow_iff.2 (.inl hmap)] at hrow
    exact exec_of_other_frame hwf rfl hop s

/-- Settles O26, from the delivery of an operation-11 frame. -/
theorem receivedMapResponseReplacesTheMap : Obligations.ReceivedMapResponseReplacesTheMap :=
  fun s p hwf =>
    ⟨fun hlen => ⟨(s.block.closeFrame.writeMap p).mapNote,
        (s.block.closeFrame.holdsMapOf_writeMap hlen).notes, exec_mapResponseFrame_of_eq hwf hlen s⟩,
      fun hlen => exec_mapResponseFrame_of_ne hwf hlen s⟩

end Sys2Proof.Machine
end

section
/-! PROOFS. LOOKUP (spec/40_rx_decoder.md R110 to R112): the greatest id that holds a note, the answer of LOOKUP
for every map store, and the map that a received frame leaves. -/

namespace Sys2Proof.Machine

open Config

variable {k : Block} {n : Byte} {i : ButtonId}

/-! ### The greatest id -/

/-- The greatest id is that of an entry that holds the note, above which no entry does (R110). -/
theorem greatestId_eq_some (hi : k.noteAt i = n) (habove : ∀ j, i < j → k.noteAt j ≠ n) :
    greatestId k n = some i := by
  have hsorted : ((List.finRange 64).filter fun j => k.noteAt j == n).Pairwise (· ≤ ·) :=
    (List.pairwise_le_finRange 64).filter _
  have hmem : i ∈ (List.finRange 64).filter fun j => k.noteAt j == n := by simp [hi]
  have hlast := List.getLast?_eq_some_getLast (List.ne_nil_of_mem hmem)
  have hle := hsorted.rel_getLast hmem
  have hholds := (List.mem_filter.1 (List.getLast_mem (List.ne_nil_of_mem hmem))).2
  rw [greatestId, hlast]
  congr 1
  by_contra hne
  exact habove _ (lt_of_le_of_ne hle (Ne.symm hne)) (beq_iff_eq.1 hholds)

/-! ### The answer of LOOKUP -/

/-- Before any map LOOKUP reports UnresolvedButton(1) (R110). -/
theorem lookupNote_of_no_map (h : k.mapValid = false) (n : Byte) :
    lookupNote n k = Response.ok.raise .noMap := if_neg (by simp [h])

/-- A note that no entry holds is UnresolvedButton(2) (R110). -/
theorem lookupNote_of_absent (hvalid : k.mapValid = true) (h : ∀ i, k.noteAt i ≠ n) :
    lookupNote n k = Response.ok.raise .noteAbsent := by
  rw [lookupNote, if_pos hvalid, greatestId_eq_none_iff.2 h]

/-- A note that some entry holds is answered by the greatest id that does (R110). -/
theorem lookupNote_of_greatest (hvalid : k.mapValid = true) (hi : k.noteAt i = n)
    (habove : ∀ j, i < j → k.noteAt j ≠ n) : lookupNote n k = Response.ok.returnId i := by
  rw [lookupNote, if_pos hvalid, greatestId_eq_some hi habove]

/-- LOOKUP gives its answer and writes no state. -/
theorem exec_lookup_of_eq {s : State} {r : Response} (h : lookupNote n s.block = r) :
    exec (.lookup n) s = .next { s with outbox := s.outbox ++ [r] } :=
  exec_of_pureResponse (congrArg some h)

/-- An entry of a map holds a note exactly where the payload byte of the entry does (20_memory.md R45). -/
theorem Block.HoldsMapOf.noteAt_eq_iff {p : List Byte} (h : k.HoldsMapOf p) (i : ButtonId) :
    k.noteAt i = n ↔ p[2 * i.val]? = some n := by
  rw [h.notes i, Option.some_inj]

/-! ### The obligations -/

/-- Settles O23, by the three answers of LOOKUP. -/
theorem lookupAnswersTheGreatestId : Obligations.LookupAnswersTheGreatestId :=
  ⟨fun _ hw => decodeCommand_lookup hw, fun _ n =>
    ⟨fun hvalid => exec_lookup_of_eq (lookupNote_of_no_map hvalid n),
      fun hvalid habsent => exec_lookup_of_eq (lookupNote_of_absent hvalid habsent),
      fun _ hvalid hi habove => exec_lookup_of_eq (lookupNote_of_greatest hvalid hi habove)⟩⟩

/-- Settles O24: a written map holds no marker, so that no entry is the one asked for. -/
theorem lookupOfAMarkerIsNeverResolved : Obligations.LookupOfAMarkerIsNeverResolved := by
  intro s n ⟨_, hmap⟩ hn
  have hmarker : plainByte n ≠ true := by obtain rfl | rfl := hn <;> decide
  cases hvalid : s.block.mapValid with
  | false => exact ⟨_, exec_lookup_of_eq (lookupNote_of_no_map hvalid n), rfl, rfl⟩
  | true =>
    have habsent : ∀ i, s.block.noteAt i ≠ n := fun i hi => hmarker (hi ▸ hmap hvalid i)
    exact ⟨_, exec_lookup_of_eq (lookupNote_of_absent hvalid habsent), rfl, rfl⟩

/-- Settles O28: the frame leaves the map of its payload, whatever the map was before, and LOOKUP reads that map. -/
theorem lookupAnswersFromTheLastMapFrame : Obligations.LookupAnswersFromTheLastMapFrame := by
  intro s p n hwf hlen
  have hmap := s.block.closeFrame.holdsMapOf_writeMap hlen
  refine ⟨_, exec_mapResponseFrame_of_eq hwf hlen s, fun habsent => ?_, fun i hlt hi habove => ?_⟩
  · exact exec_lookup_of_eq (lookupNote_of_absent hmap.valid
      fun i => mt (hmap.noteAt_eq_iff i).1 (habsent i.val i.isLt))
  · exact exec_lookup_of_eq (lookupNote_of_greatest (i := ⟨i, hlt⟩) hmap.valid
      ((hmap.noteAt_eq_iff ⟨i, hlt⟩).2 hi)
      fun j hij => mt (hmap.noteAt_eq_iff j).1 (habove j.val hij j.isLt))

end Sys2Proof.Machine
end

section
/-! PROOFS. The TX unit (spec/41_tx_encoder.md R150 to R161): a sync payload is twelve seven-bit values whose bits are
the slots of MASK, what flipping one button does to it, and the commands that emit a frame. -/

namespace Sys2Proof

open Config

/-! ### The payload bytes of a frame -/

section frame

variable {op : Byte} {p : List Byte} {n : Nat}

/-- Byte 6 + n of a frame is byte n of its payload (30_encoding.md R60). -/
theorem frameBytes_getElem?_payload (hn : n < p.length) :
    (frameBytes op p)[6 + n]? = some (p.getD n 0) := by
  rw [frameBytes, List.append_assoc, List.getElem?_append_right (Nat.le_add_right 6 n),
    List.getElem?_append_left (by simpa using hn), List.getD_eq_getElem p 0 hn]
  simp [hn]

theorem frameBytes_getD_payload (hn : n < p.length) : (frameBytes op p).getD (6 + n) 0 = p.getD n 0 := by
  rw [List.getD_eq_getElem?_getD, frameBytes_getElem?_payload hn, Option.getD_some]

theorem frameBytes_set_payload (hn : n < p.length) (b : Byte) :
    (frameBytes op p).set (6 + n) b = frameBytes op (p.set n b) := by
  rw [frameBytes, List.append_assoc, List.set_append_right _ _ (Nat.le_add_right 6 n),
    List.set_append_left _ _ (by simpa using hn), ← List.append_assoc]
  simp [frameBytes]

end frame

/-! ### Seven-bit values -/

theorem getLsbD_seven_of_lt {b : Byte} (h : b.toNat < 128) : b.getLsbD 7 = false :=
  Nat.testBit_lt_two_pow h

/-- Bits 0 to 6 tell a seven-bit value. -/
theorem sevenBit_ext {a b : Byte} (ha : a.toNat < 128) (hb : b.toNat < 128)
    (h : ∀ j < 7, a.getLsbD j = b.getLsbD j) : a = b := by
  refine BitVec.eq_of_getLsbD_eq fun j hj => ?_
  obtain hlow | rfl : j < 7 ∨ j = 7 := by omega
  · exact h j hlow
  · rw [getLsbD_seven_of_lt ha, getLsbD_seven_of_lt hb]

/-- Flipping one of bits 0 to 6 keeps a seven-bit value. -/
theorem toNat_xor_twoPow_lt {b : Byte} {j : Nat} (hb : b.toNat < 128) (hj : j < 7) :
    (b ^^^ BitVec.twoPow 8 j).toNat < 128 := by
  have hpow : (BitVec.twoPow 8 j).toNat < 2 ^ 7 := by
    rw [BitVec.toNat_twoPow_of_lt (by omega)]
    exact Nat.pow_lt_pow_right (by decide) hj
  rw [BitVec.toNat_xor]
  exact Nat.xor_lt_two_pow hb hpow

/-- Flipping bit i of byte n of a byte string flips that bit and no other. -/
theorem getLsbD_getD_set_flip {p : List Byte} {n n' i j : Nat} (hn : n < p.length) (hi : i < 8) :
    ((p.set n (p.getD n 0 ^^^ BitVec.twoPow 8 i)).getD n' 0).getLsbD j =
      ((p.getD n' 0).getLsbD j ^^ decide (n = n' ∧ i = j)) := by
  rw [List.getD_eq_getElem?_getD]
  by_cases h : n = n'
  · subst h
    rw [List.getElem?_set_self hn, Option.getD_some, BitVec.getLsbD_xor, BitVec.getLsbD_twoPow]
    simp [hi]
  · rw [List.getElem?_set_ne h, ← List.getD_eq_getElem?_getD]
    simp [h]

namespace Machine

variable {m : Mask} {states a b : Buttons} {c k : Nat} {id : ButtonId}

/-! ### Slots -/

theorem slotOff_eq_true_iff :
    slotOff m states c k = true ↔ ∃ id, m c k = some id ∧ states.getLsbD id.val = false := by
  cases h : m c k with
  | none => simp [slotOff_of_none h]
  | some id => simp [slotOff_of_some h]

/-- With every button ON no slot is off (41_tx_encoder.md R153). -/
theorem slotOff_allOnes (m : Mask) (c k : Nat) : slotOff m (BitVec.allOnes 64) c k = false := by
  cases h : m c k with
  | none => exact slotOff_of_none h
  | some id => rw [slotOff_of_some h, BitVec.getLsbD_allOnes, decide_eq_true id.isLt, Bool.not_true]

/-- Two state vectors give a slot the same bit exactly where they agree on the button it holds, if any. -/
theorem slotOff_eq_iff :
    slotOff m a c k = slotOff m b c k ↔
      ∀ id, m c k = some id → a.getLsbD id.val = b.getLsbD id.val := by
  cases h : m c k with
  | none => simp [slotOff_of_none h]
  | some id => simp [slotOff_of_some h]

/-- Flipping a button flips the slots that hold it, and no other. -/
theorem slotOff_flip (m : Mask) (states : Buttons) (id : ButtonId) (c k : Nat) :
    slotOff m (states ^^^ BitVec.twoPow 64 id.val) c k =
      (slotOff m states c k ^^ decide (m c k = some id)) := by
  cases h : m c k with
  | none => simp [slotOff_of_none h]
  | some held => simp [slotOff_of_some h, Fin.ext_iff, eq_comm]

/-! ### The payload as the bits of the slots -/

/-- The payload byte of a slot is one of the twelve. -/
theorem slotByte_lt (hc : c < nCols) (hk : k < nSlots) : 2 * c + k / 7 < 12 := by
  simp only [nCols, nSlots] at hc hk
  omega

/-- The sync payload is the twelve seven-bit values whose bits are the slots (41_tx_encoder.md R151). -/
theorem syncPayload_eq_iff {p : List Byte} :
    syncPayload m states = p ↔
      p.length = 12 ∧ (∀ x ∈ p, x.toNat < 128) ∧
        ∀ c k, c < nCols → k < nSlots →
          (p.getD (2 * c + k / 7) 0).getLsbD (k % 7) = slotOff m states c k := by
  constructor
  · rintro rfl
    exact ⟨syncPayload_length m states, fun x hx => toNat_lt_of_mem_syncPayload m states hx,
      fun c k hc hk => getLsbD_syncPayload m states hc hk⟩
  · rintro ⟨hlen, hseven, hbits⟩
    refine List.ext_getElem (by rw [syncPayload_length, hlen]) fun n hn hn' => ?_
    refine sevenBit_ext (toNat_lt_of_mem_syncPayload m states (List.getElem_mem hn))
      (hseven _ (List.getElem_mem hn')) fun j hj => ?_
    have hc : n / 2 < nCols := by simp only [nCols]; omega
    have hk : 7 * (n % 2) + j < nSlots := by simp only [nSlots]; omega
    have hbit := (getLsbD_syncPayload m states hc hk).trans (hbits _ _ hc hk).symm
    rwa [show 2 * (n / 2) + (7 * (n % 2) + j) / 7 = n by omega, show (7 * (n % 2) + j) % 7 = j by omega,
      List.getD_eq_getElem _ 0 hn, List.getD_eq_getElem _ 0 hn'] at hbit

/-- Every bit 7 of the sync payload is 0 (30_encoding.md R62). -/
theorem getLsbD_seven_syncPayload (m : Mask) (states : Buttons) {n : Nat} (hn : n < 12) :
    ((syncPayload m states).getD n 0).getLsbD 7 = false := by
  have hlt : n < (syncPayload m states).length := hn
  rw [List.getD_eq_getElem _ 0 hlt]
  exact getLsbD_seven_of_lt (toNat_lt_of_mem_syncPayload m states (List.getElem_mem hlt))

theorem syncPayload_allOnes (m : Mask) : syncPayload m (BitVec.allOnes 64) = List.replicate 12 0 := by
  refine syncPayload_eq_iff.2 ⟨rfl, fun x hx => ?_, fun c k hc hk => ?_⟩
  · rw [List.eq_of_mem_replicate hx]
    decide
  · rw [slotOff_allOnes, List.getD_replicate _ (slotByte_lt hc hk)]
    exact BitVec.getLsbD_zero

/-- Two state vectors give one frame exactly where every slot has the same bit. -/
theorem syncFrameOf_eq_iff :
    syncFrameOf m a = syncFrameOf m b ↔
      ∀ c k, c < nCols → k < nSlots → slotOff m a c k = slotOff m b c k := by
  have hpayload : syncFrameOf m a = syncFrameOf m b ↔ syncPayload m a = syncPayload m b :=
    ⟨fun h => (frameBytes_inj h).2, congrArg (frameBytes opSync)⟩
  obtain ⟨hlen, hseven, hbits⟩ := syncPayload_eq_iff.1 (rfl : syncPayload m b = syncPayload m b)
  rw [hpayload, syncPayload_eq_iff]
  constructor
  · rintro ⟨_, _, h⟩ c k hc hk
    rw [← h c k hc hk, hbits c k hc hk]
  · exact fun h => ⟨hlen, hseven, fun c k hc hk => by rw [hbits c k hc hk, h c k hc hk]⟩

/-- Two state vectors give one frame exactly where they agree on every mapped button. -/
theorem syncFrameOf_eq_iff_mapped :
    syncFrameOf m a = syncFrameOf m b ↔
      ∀ c k id, c < nCols → k < nSlots → m c k = some id → a.getLsbD id.val = b.getLsbD id.val := by
  simp only [syncFrameOf_eq_iff, slotOff_eq_iff]
  exact ⟨fun h c k id hc hk => h c k hc hk id, fun h c k hc hk id => h c k id hc hk⟩

/-! ### Flipping one button -/

/-- The slot is the one that holds the button. -/
def OnlySlot (m : Mask) (id : ButtonId) (c k : Nat) : Prop :=
  ∀ c' k', c' < nCols → k' < nSlots → (m c' k' = some id ↔ c' = c ∧ k' = k)

theorem onlySlot_zero_of_wf2 (h : m.Wf2) : OnlySlot m 0 0 0 := by
  obtain ⟨hzero, hother⟩ := h
  refine fun c k hc hk => ⟨hother c k hc hk, ?_⟩
  rintro ⟨rfl, rfl⟩
  exact hzero

theorem onlySlot_of_injective (h : m.Injective) (hc : c < nCols) (hk : k < nSlots)
    (hid : m c k = some id) : OnlySlot m id c k := by
  refine fun c' k' hc' hk' => ⟨fun hid' => h c' k' c k id hc' hk' hc hk hid' hid, ?_⟩
  rintro ⟨rfl, rfl⟩
  exact hid

/-- Distinct slots are distinct bits of the payload. -/
theorem slotBit_inj {c' k' : Nat} (hk : k < nSlots) (hk' : k' < nSlots) :
    2 * c + k / 7 = 2 * c' + k' / 7 ∧ k % 7 = k' % 7 ↔ c' = c ∧ k' = k := by
  simp only [nSlots] at hk hk'
  omega

/-- Flipping a button that one slot holds flips the payload bit of that slot and no other. -/
theorem syncPayload_flip (hc : c < nCols) (hk : k < nSlots) (h : OnlySlot m id c k) :
    syncPayload m (states ^^^ BitVec.twoPow 64 id.val) =
      (syncPayload m states).set (2 * c + k / 7)
        ((syncPayload m states).getD (2 * c + k / 7) 0 ^^^ BitVec.twoPow 8 (k % 7)) := by
  have hmod : k % 7 < 7 := Nat.mod_lt _ (by decide)
  have hbyte : 2 * c + k / 7 < (syncPayload m states).length := slotByte_lt hc hk
  refine syncPayload_eq_iff.2 ⟨by rw [List.length_set, syncPayload_length], fun x hx => ?_,
    fun c' k' hc' hk' => ?_⟩
  · obtain hold | rfl := List.mem_or_eq_of_mem_set hx
    · exact toNat_lt_of_mem_syncPayload m states hold
    · rw [List.getD_eq_getElem _ 0 hbyte]
      exact toNat_xor_twoPow_lt (toNat_lt_of_mem_syncPayload m states (List.getElem_mem hbyte)) hmod
  · have hmod8 : k % 7 < 8 := by omega
    rw [getLsbD_getD_set_flip hbyte hmod8, getLsbD_syncPayload m states hc' hk', slotOff_flip,
      decide_eq_decide.2 ((h c' k' hc' hk').trans (slotBit_inj hk hk').symm)]

/-- Flipping a button that one slot holds flips the frame bit of that slot and no other (41_tx_encoder.md R153). -/
theorem syncFrameOf_flip (hc : c < nCols) (hk : k < nSlots) (h : OnlySlot m id c k) :
    syncFrameOf m (states ^^^ BitVec.twoPow 64 id.val) =
      (syncFrameOf m states).set (6 + 2 * c + k / 7)
        ((syncFrameOf m states).getD (6 + 2 * c + k / 7) 0 ^^^ BitVec.twoPow 8 (k % 7)) := by
  have hbyte : 2 * c + k / 7 < (syncPayload m states).length := slotByte_lt hc hk
  rw [syncFrameOf, syncFrameOf, Nat.add_assoc, frameBytes_getD_payload hbyte, frameBytes_set_payload hbyte,
    syncPayload_flip hc hk h]

/-- Flipping a button that no slot holds changes no frame (41_tx_encoder.md R153). -/
theorem syncFrameOf_flip_unmapped (h : ∀ c k, c < nCols → k < nSlots → m c k ≠ some id) :
    syncFrameOf m (states ^^^ BitVec.twoPow 64 id.val) = syncFrameOf m states := by
  refine syncFrameOf_eq_iff.2 fun c k hc hk => ?_
  rw [slotOff_flip, decide_eq_false (h c k hc hk), Bool.xor_false]

/-! ### The obligations -/

/-- Settles O11: under MASK_INJECTIVE a mapped button has one slot. -/
theorem flippingAButtonFlipsItsOneSlotBit : Obligations.FlippingAButtonFlipsItsOneSlotBit :=
  fun _ _ _ hinj =>
    ⟨syncFrameOf_flip_unmapped, fun _ _ hc hk hid =>
      syncFrameOf_flip hc hk (onlySlot_of_injective hinj hc hk hid)⟩

/-- Settles O10: under WF2 button 0 has one slot, the first of column 0. -/
theorem flippingButton0FlipsBit0OfByte6 : Obligations.FlippingButton0FlipsBit0OfByte6 := by
  intro m states hwf
  have hbyte : 0 < (syncPayload m states).length := by simp
  have hbit0 : (1 : Buttons) = BitVec.twoPow 64 (0 : ButtonId).val := by decide
  have hflip := syncFrameOf_flip (states := states) (c := 0) (k := 0) (by decide) (by decide)
    (onlySlot_zero_of_wf2 hwf)
  refine ⟨by rw [hbit0]; exact hflip, ?_⟩
  calc ((syncFrameOf m states).getD 6 0).getLsbD 0
      = ((syncPayload m states).getD 0 0).getLsbD 0 := by
        rw [syncFrameOf, frameBytes_getD_payload (n := 0) hbyte]
    _ = slotOff m states 0 0 := getLsbD_syncPayload m states (c := 0) (k := 0) (by decide) (by decide)
    _ = !states.getLsbD 0 := slotOff_of_some hwf.1

/-- Settles O12: the frame shows the bit of every slot, and a slot's bit the state of the button it holds. -/
theorem syncFrameShowsExactlyTheMappedButtons : Obligations.SyncFrameShowsExactlyTheMappedButtons :=
  fun _ _ _ => syncFrameOf_eq_iff_mapped

/-- Settles O8, from the closed form of the iteration. -/
theorem columnIterationEqualsTheClosedForm : Obligations.ColumnIterationEqualsTheClosedForm :=
  fun m states c =>
    ⟨congrArg ColumnSums.lo (packColumn_eq m states c), congrArg ColumnSums.hi (packColumn_eq m states c),
      packColumn_lo_lt m states c, packColumn_hi_lt m states c,
      fun _ hk => ⟨testBit_packColumn_lo m states hk, testBit_packColumn_hi m states hk⟩⟩

/-- Settles O9: no slot is off, so that every payload byte is 0. -/
theorem syncAllOnEmitsZeros : Obligations.SyncAllOnEmitsZeros := by
  refine ⟨syncPayload_allOnes, fun s => ?_⟩
  rw [exec_sync, syncFrameOf, syncPayload_allOnes]
  rfl

/-- Settles O7: the payload byte 2c has the slots 0 to 6 of column c as its bits, and the byte 2c + 1 the slots from 7
on. -/
theorem syncEmitsTheSlotBitsOfEveryColumn : Obligations.SyncEmitsTheSlotBitsOfEveryColumn := by
  refine ⟨fun _ hw => decodeCommand_sync hw, fun s states =>
    ⟨syncFrameOf mask states, exec_eq_next_of_pureResponse rfl, rfl, rfl, rfl, fun c hc => ?_⟩⟩
  have hlo : 2 * c < 12 := by omega
  have hhi : 2 * c + 1 < 12 := by omega
  refine ⟨_, _, frameBytes_getElem?_payload hlo, ?_, getLsbD_seven_syncPayload mask states hlo,
    getLsbD_seven_syncPayload mask states hhi, fun j hj => ⟨?_, ?_⟩⟩
  · rw [show 7 + 2 * c = 6 + (2 * c + 1) by omega]
    exact frameBytes_getElem?_payload hhi
  · have hbit := getLsbD_syncPayload mask states (c := c) (k := j) hc (hj.trans (by decide))
    rw [Nat.div_eq_of_lt hj, Nat.mod_eq_of_lt hj, Nat.add_zero] at hbit
    rw [hbit, slotOff_eq_true_iff]
  · have hbit := getLsbD_syncPayload mask states (c := c) (k := 7 + j) hc (Nat.add_lt_add_left hj 7)
    rw [show (7 + j) / 7 = 1 by omega, show (7 + j) % 7 = j by omega] at hbit
    rw [hbit, slotOff_eq_true_iff]

/-- Settles O5: the response of EMIT_FACTORY_RESET is pure, and its frame has an empty payload. -/
theorem factoryResetEmitsItsFixedFrame : Obligations.FactoryResetEmitsItsFixedFrame :=
  ⟨fun _ hw => decodeCommand_emitFactoryReset hw, fun _ => exec_eq_next_of_pureResponse rfl⟩

/-- Settles O6: the response of EMIT_MAP_REQUEST is pure, and its frame has the map operation as its payload. -/
theorem mapRequestEmitsItsFixedFrame : Obligations.MapRequestEmitsItsFixedFrame :=
  ⟨fun _ hw => decodeCommand_emitMapRequest hw, fun _ => exec_eq_next_of_pureResponse rfl⟩

end Machine

end Sys2Proof
end

section
/-! PROOFS. The control commands (spec/42_control.md R180 to R182): NOP and the reserved command have a pure response,
and RESET leaves the initial block state, in which LOOKUP finds no map. -/

namespace Sys2Proof.Machine

/-- The state that RESET leaves: the initial block with freshly drawn notes and one default response (R181, R230). -/
theorem exec_reset_eq_next (s : State) :
    exec .reset s = .next { s with
      block := Block.initial (drawnNotes s.draws)
      draws := s.draws + 1
      outbox := s.outbox ++ [Response.ok] } :=
  State.answer_next_iff.2 rfl

/-- In the initial block state, whatever its notes, LOOKUP reports UnresolvedButton(1) (R110, R230). -/
theorem lookupNote_initial (notes : Vector Byte 64) (n : Byte) :
    lookupNote n (Block.initial notes) = Response.ok.raise .noMap :=
  lookupNote_of_no_map (Block.initial_mapValid notes) n

/-! ### The obligations -/

/-- Settles O1: the response of NOP is pure, and it is the default one. -/
theorem nopReturnsTheDefaultResponse : Obligations.NopReturnsTheDefaultResponse :=
  ⟨fun _ hw => decodeCommand_nop hw, fun _ => exec_eq_next_of_pureResponse rfl⟩

/-- Settles O2: the response of the reserved command is pure, and it raises IllegalCommand(0). -/
theorem reservedReportsIllegalCommand : Obligations.ReservedReportsIllegalCommand :=
  ⟨fun _ hw => decodeCommand_reserved hw, fun _ => exec_eq_next_of_pureResponse rfl⟩

/-- Settles O3: each RESET leaves an initial block, and initial blocks differ in their notes alone, which LOOKUP does not
read while there is no map. -/
theorem resetPutsTheBlockInItsInitialState : Obligations.ResetPutsTheBlockInItsInitialState := by
  refine ⟨fun _ hw => decodeCommand_reset hw, fun s =>
    ⟨_, exec_reset_eq_next s, rfl, rfl, rfl, rfl, rfl, rfl, fun n => ?_, ?_⟩⟩
  · exact exec_lookup_of_eq (lookupNote_initial (drawnNotes s.draws) n)
  · exact ⟨_, exec_reset_eq_next _, rfl, rfl, rfl, rfl⟩

end Sys2Proof.Machine
end

section
/-! PROOFS. Errors and their codes (spec/60_exceptions.md R200 to R207): the reason that an end marker reports, and the
legality of every response (spec/30_encoding.md R76), by the ways a response is built. -/

namespace Sys2Proof.Machine

open Config

variable {k : Block} {s t : State} {f p buf : List Byte} {op : Byte} {r : Reason}

/-! ### The reason of an INVALID_FRAME, in terms of the buffer that the end marker closes -/

/-- FEED of an end marker reports the first check of R102 that fails, closes the RX registers and changes nothing
else. -/
theorem exec_feed_eox_of_failsFirst (hacc : s.block.rxMode = .acc)
    (h : FailsFirst (s.block.rxBuf ++ [eox]) s.block.rxOvf r) :
    exec (.feed eox) s = .next { s with
      block := s.block.closeFrame
      outbox := s.outbox ++ [Response.ok.raise (.invalidFrame r)] } := by
  rw [exec_feed_eox_acc hacc, endFrame, parseFrame_eq_invalid_iff.2 h]
  rfl

theorem getElem?_zero_append_eox (hopen : buf.head? = some sox) : (buf ++ [eox])[0]? = some sox := by
  rw [← List.head?_eq_getElem?, List.head?_append, hopen, Option.some_or]

/-- The end marker of a frame of 7 bytes or more is no header byte. -/
theorem header_append_eox (hlen : 6 ≤ buf.length) :
    ((buf ++ [eox]).drop 1).take 3 = (buf.drop 1).take 3 := by
  rw [List.drop_append_of_le_length (by omega),
    List.take_append_of_le_length (by rw [List.length_drop]; omega)]

theorem failsFirst_short (hlen : buf.length < 6) : FailsFirst (buf ++ [eox]) false .short :=
  ⟨rfl, by rw [List.length_append, List.length_singleton]; omega⟩

theorem failsFirst_header (hopen : buf.head? = some sox) (hlen : 6 ≤ buf.length)
    (hhdr : (buf.drop 1).take 3 ≠ [hdr1, hdr2, hdr3]) : FailsFirst (buf ++ [eox]) false .header :=
  ⟨rfl, by rw [List.length_append, List.length_singleton]; omega, getElem?_zero_append_eox hopen,
    by rwa [header_append_eox hlen]⟩

theorem failsFirst_device (hopen : buf.head? = some sox) (hlen : 6 ≤ buf.length)
    (hhdr : (buf.drop 1).take 3 = [hdr1, hdr2, hdr3]) (hdev : buf[4]? ≠ some devId) :
    FailsFirst (buf ++ [eox]) false .device :=
  ⟨rfl, by rw [List.length_append, List.length_singleton]; omega,
    take_four_iff.2 ⟨getElem?_zero_append_eox hopen, (header_append_eox hlen).trans hhdr⟩,
    by rwa [List.getElem?_append_left (by omega)]⟩

/-! ### Legal responses, one rule for each way of building one -/

theorem Response.legal_ok : Response.ok.Legal where
  codes := by decide
  mst _ he := by cases he
  payload _ he := by cases he
  frame _ hf := by cases hf
  invalid_silent _ := rfl
  rejected_reported h := absurd h (by decide)
  emits_ok _ := rfl
  id_ok _ := rfl

/-- An error with listed codes, other than the one that needs an event beside it. -/
theorem Response.legal_raise {e : Error} (hcodes : (statusCode e, infoCode e) ∈ returnedCodes)
    (hmap : statusCode e ≠ 2) : (Response.ok.raise e).Legal where
  codes := hcodes
  mst _ he := by cases he
  payload _ he := by cases he
  frame _ hf := by cases hf
  invalid_silent _ := rfl
  rejected_reported h := absurd h hmap
  emits_ok h := absurd rfl h
  id_ok h := absurd rfl h

theorem Response.legal_emitTx (hlen : f.length ∈ [19, 7, 8]) : (Response.ok.emitTx f).Legal :=
  { Response.legal_ok with
    frame := fun _ hf => Option.some.inj hf ▸ hlen
    emits_ok := fun _ => rfl }

theorem Response.legal_returnId (i : ButtonId) : (Response.ok.returnId i).Legal :=
  { Response.legal_ok with
    id_ok := fun _ => rfl }

/-- The event of a valid frame with no error beside it (40_rx_decoder.md R103, R104). -/
theorem Response.legal_emitRx {m : BitVec 2} (hm : m ≠ 3) (hlen : p.length + 7 ≤ maxFrame) :
    (Response.ok.emitRx op p m).Legal where
  codes := Response.legal_ok.codes
  mst _ he := Option.some.inj he ▸ hm
  payload _ he := Option.some.inj he ▸ hlen
  frame _ hf := by cases hf
  invalid_silent h := absurd h (by decide : (0 : BitVec 3) ≠ 1)
  rejected_reported h := absurd h (by decide : (0 : BitVec 3) ≠ 2)
  emits_ok _ := rfl
  id_ok _ := rfl

/-- The response to a rejected map: the one error that keeps the event of its frame (R202). -/
theorem Response.legal_mapRejected (hlen : p.length + 7 ≤ maxFrame) :
    ((Response.ok.emitRx op p mstMapRejected).raise .invalidMapPayload).Legal where
  codes := (by decide : ((2, 0) : BitVec 3 × BitVec 3) ∈ returnedCodes)
  mst _ he := Option.some.inj he ▸ (by decide : mstMapRejected ≠ 3)
  payload _ he := Option.some.inj he ▸ hlen
  frame _ hf := by cases hf
  invalid_silent h := absurd h (by decide : (2 : BitVec 3) ≠ 1)
  rejected_reported _ := ⟨_, rfl, rfl⟩
  emits_ok h := absurd rfl h
  id_ok h := absurd rfl h

/-- The INVALID_FRAME reasons that FEED returns are listed (R200; 40_rx_decoder.md R107 a). -/
theorem legal_invalidFrame (h : reasonCode r ∈ ([1, 2, 3, 4, 5] : List (BitVec 3))) :
    (Response.ok.raise (.invalidFrame r)).Legal := by
  have hlisted : ∀ c ∈ ([1, 2, 3, 4, 5] : List (BitVec 3)), (1, c) ∈ returnedCodes := by decide
  exact Response.legal_raise (hlisted _ h) (by decide : (1 : BitVec 3) ≠ 2)

/-! ### The responses of the instructions -/

/-- INV3 bounds the payload of a frame that the end marker completes. -/
theorem Block.RxInv.payload_length (h : k.RxInv) {o : Bool}
    (hparse : parseFrame (k.rxBuf ++ [eox]) o = .valid op p) : p.length + 7 ≤ maxFrame := by
  have hlen := congrArg List.length (parseFrame_eq_valid_iff.1 hparse).2
  have hbounded := h.bounded
  have hpos := le_maxFrame
  rw [List.length_append, List.length_singleton, frameBytes_length] at hlen
  omega

theorem endFrame_legal (h : k.RxInv) (hacc : k.rxMode = .acc) : (endFrame k).2.Legal := by
  obtain ⟨_, hr, hend⟩ | ⟨_, _, hparse, ⟨_, hend⟩ | ⟨_, _, hend⟩ | ⟨_, _, hend⟩⟩ :=
    endFrame_cases k <;> rw [hend]
  · exact legal_invalidFrame (h.endFrame_reason hacc hr)
  · exact Response.legal_emitRx (by decide) (h.payload_length hparse)
  · exact Response.legal_mapRejected (h.payload_length hparse)
  · exact Response.legal_emitRx (by decide) (h.payload_length hparse)

theorem feedByte_legal (h : k.RxInv) (b : Byte) : (feedByte maxFrame b k).2.Legal := by
  obtain ⟨_, hf⟩ | ⟨_, _, hf⟩ | ⟨_, hacc, hf⟩ | ⟨_, _, _, hf⟩ | ⟨_, _, _, hf⟩ :=
    feedByte_cases maxFrame b k <;> rw [hf]
  · exact Response.legal_ok
  · exact legal_invalidFrame (by decide)
  · exact endFrame_legal h hacc
  · exact Response.legal_ok
  · exact Response.legal_ok

/-- Each byte of a run is fed to a block that meets the invariant, since the bytes before it keep it. -/
theorem feedBytes_legal (bytes : List Byte) (h : k.Inv) :
    ∀ r ∈ (feedBytes maxFrame bytes k).2, r.Legal := by
  induction bytes generalizing k with
  | nil => simp
  | cons b more ih =>
    rw [feedBytes_cons]
    exact List.forall_mem_cons.2 ⟨feedByte_legal h.1 b, ih (feedByte_keeps_inv b h)⟩

theorem lookupNote_legal (n : Byte) (k : Block) : (lookupNote n k).Legal := by
  obtain ⟨_, hl⟩ | ⟨_, _, hl⟩ | ⟨i, _, _, hl⟩ := lookupNote_cases n k <;> rw [hl]
  · exact Response.legal_raise (by decide) (by decide)
  · exact Response.legal_raise (by decide) (by decide)
  · exact Response.legal_returnId i

/-- The commands that leave the block alone emit a frame of 19, 7 or 8 bytes, look a note up, are NOP, or are
illegal. -/
theorem pureResponse_legal {i : Instr} {r : Response} (h : pureResponse i k = some r) : r.Legal := by
  cases i with
  | nop => cases h; exact Response.legal_ok
  | sync => cases h; exact Response.legal_emitTx (by rw [syncFrameOf_length]; decide)
  | emitFactoryReset => cases h; exact Response.legal_emitTx (by decide)
  | emitMapRequest => cases h; exact Response.legal_emitTx (by decide)
  | lookup n => cases h; exact lookupNote_legal n k
  | reserved => cases h; exact Response.legal_raise (by decide) (by decide)
  | _ => cases h

theorem exec_legal {i : Instr} (h : s.Inv) (hexec : exec i s = .next t) :
    ∃ rs, t.outbox = s.outbox ++ rs ∧ ∀ r ∈ rs, r.Legal := by
  obtain ⟨r, hr, rfl⟩ | ⟨b, _, rfl⟩ | ⟨_, rfl⟩ | ⟨bytes, _, rfl⟩ := exec_cases hexec
  · exact ⟨[r], rfl, List.forall_mem_singleton.2 (pureResponse_legal hr)⟩
  · exact ⟨_, rfl, List.forall_mem_singleton.2 (feedByte_legal h.1 b)⟩
  · exact ⟨_, rfl, List.forall_mem_singleton.2 Response.legal_ok⟩
  · exact ⟨_, rfl, feedBytes_legal bytes h⟩

/-! ### The obligations -/

/-- Settles O43, from what a step can do: it waits without a response, or performs one instruction, whose responses are
legal. -/
theorem everyResponseIsLegal : Obligations.EveryResponseIsLegal := by
  intro s t hinv hstep
  obtain ⟨_, rfl⟩ | ⟨i, rest, _, hexec⟩ := step_cases hstep
  · exact ⟨[], (List.append_nil _).symm, List.forall_mem_nil _⟩
  · exact exec_legal (s := { s with inbox := rest }) hinv hexec

/-- Settles O19: under each clause's conditions its check is the first of R102 that fails. -/
theorem invalidFrameReportsItsReason : Obligations.InvalidFrameReportsItsReason := by
  intro s hacc hopen
  refine ⟨fun hovf => ?_, fun hovf hlen => ?_, fun hovf hlen hhdr => ?_, fun hovf hlen hhdr hdev => ?_⟩
  · exact exec_feed_eox_of_failsFirst (r := .overflow) hacc hovf
  · exact exec_feed_eox_of_failsFirst hacc (hovf ▸ failsFirst_short hlen)
  · exact exec_feed_eox_of_failsFirst hacc (hovf ▸ failsFirst_header hopen hlen hhdr)
  · exact exec_feed_eox_of_failsFirst hacc (hovf ▸ failsFirst_device hopen hlen hhdr hdev)

end Sys2Proof.Machine
end

section
/-! PROOFS. Reset (spec/70_reset_and_hazards.md R230, R231): the state at power-on, the block that waits, and that the
host never sees what map_note holds before a map is established. -/

namespace Sys2Proof.Machine

open Config

variable {k k' : Block} {s u s' u' : State}

/-! ### Each operation of the RX unit keeps two blocks the same to the host -/

/-- Two results that the host cannot tell apart: the blocks are the same to it, and what is returned beside them is
equal. -/
structure SameResult {α : Type} (x y : Block × α) : Prop where
  block : x.1.SameToHost y.1
  answer : x.2 = y.2

namespace Block.SameToHost

/-- An established map is visible, so that blocks with one are equal. -/
theorem eq_of_mapValid (h : k.SameToHost k') (hvalid : k.mapValid = true) : k = k' := by
  obtain ⟨hmode, hbuf, hovf, hmap, hnote⟩ := h
  have hnotes := hnote hvalid
  cases k
  cases k'
  simp_all only

/-- ResetState draws map_note but establishes no map (R230). -/
theorem initial (notes notes' : Vector Byte 64) :
    (Block.initial notes).SameToHost (Block.initial notes') :=
  ⟨rfl, rfl, rfl, rfl, fun hvalid => nomatch hvalid⟩

theorem openFrame (h : k.SameToHost k') : k.openFrame.SameToHost k'.openFrame :=
  ⟨rfl, rfl, rfl, h.mapValid, h.mapNote⟩

theorem closeFrame (h : k.SameToHost k') : k.closeFrame.SameToHost k'.closeFrame :=
  ⟨rfl, rfl, rfl, h.mapValid, h.mapNote⟩

/-- The map taken from a payload owes nothing to the notes before it (40_rx_decoder.md R104). -/
theorem writeMap (h : k.SameToHost k') (p : List Byte) : (k.writeMap p).SameToHost (k'.writeMap p) :=
  ⟨h.rxMode, h.rxBuf, h.rxOvf, rfl, fun _ => rfl⟩

theorem takeByte (h : k.SameToHost k') (bound : Nat) (b : Byte) :
    (k.takeByte bound b).SameToHost (k'.takeByte bound b) := by
  rcases Nat.lt_or_ge k.rxBuf.length (bound - 1) with hroom | hfull
  · rw [takeByte_of_lt _ _ _ hroom, takeByte_of_lt _ _ _ (h.rxBuf ▸ hroom)]
    exact ⟨h.rxMode, congrArg (· ++ [b]) h.rxBuf, h.rxOvf, h.mapValid, h.mapNote⟩
  · rw [takeByte_of_le _ _ _ hfull, takeByte_of_le _ _ _ (h.rxBuf ▸ hfull)]
    exact ⟨h.rxMode, h.rxBuf, rfl, h.mapValid, h.mapNote⟩

theorem mapExtract (h : k.SameToHost k') (p : List Byte) :
    SameResult (mapExtract p k) (mapExtract p k') := by
  by_cases hlen : p.length = mapPayloadLen
  · rw [mapExtract_of_eq hlen, mapExtract_of_eq hlen]
    exact ⟨h.writeMap p, rfl⟩
  · rw [mapExtract_of_ne hlen, mapExtract_of_ne hlen]
    exact ⟨h, rfl⟩

theorem deliver (h : k.SameToHost k') (op : Byte) (p : List Byte) :
    SameResult (deliver op p k) (deliver op p k') := by
  by_cases hop : op = opMap
  · rw [hop, deliver_map, deliver_map]
    exact h.mapExtract p
  · rw [deliver_of_ne hop, deliver_of_ne hop]
    exact ⟨h, rfl⟩

/-- EndFrame parses the RX registers alone, which are equal. -/
theorem endFrame (h : k.SameToHost k') : SameResult (endFrame k) (endFrame k') := by
  unfold Machine.endFrame
  rw [h.rxBuf, h.rxOvf]
  cases parseFrame (k'.rxBuf ++ [eox]) k'.rxOvf with
  | invalid reason => exact ⟨h.closeFrame, rfl⟩
  | valid op p => exact h.closeFrame.deliver op p

theorem feedByte (h : k.SameToHost k') (bound : Nat) (b : Byte) :
    SameResult (feedByte bound b k) (feedByte bound b k') := by
  obtain ⟨rfl, hf⟩ | ⟨rfl, hidle, hf⟩ | ⟨rfl, hacc, hf⟩ | ⟨hs, he, hidle, hf⟩ | ⟨hs, he, hacc, hf⟩ :=
    feedByte_cases bound b k <;> rw [hf]
  · rw [feedByte_sox]
    exact ⟨h.openFrame, rfl⟩
  · rw [feedByte_eox_idle (h.rxMode ▸ hidle)]
    exact ⟨h, rfl⟩
  · rw [feedByte_eox_acc (h.rxMode ▸ hacc)]
    exact h.endFrame
  · rw [feedByte_idle (h.rxMode ▸ hidle) hs he]
    exact ⟨h, rfl⟩
  · rw [feedByte_acc (h.rxMode ▸ hacc) hs he]
    exact ⟨h.takeByte bound b, rfl⟩

theorem feedBytes (h : k.SameToHost k') (bound : Nat) (bytes : List Byte) :
    SameResult (feedBytes bound bytes k) (feedBytes bound bytes k') := by
  induction bytes generalizing k k' with
  | nil => exact ⟨h, rfl⟩
  | cons b more ih =>
    have hfirst := h.feedByte bound b
    have hothers := ih hfirst.block
    rw [feedBytes_cons, feedBytes_cons]
    exact ⟨hothers.block, congrArg₂ List.cons hfirst.answer hothers.answer⟩

/-- LOOKUP reads map_note only where a map is established (40_rx_decoder.md R110). -/
theorem lookupNote (h : k.SameToHost k') (n : Byte) : lookupNote n k = lookupNote n k' := by
  cases hvalid : k.mapValid with
  | false => rw [lookupNote_of_no_map hvalid, lookupNote_of_no_map (h.mapValid ▸ hvalid)]
  | true => rw [h.eq_of_mapValid hvalid]

/-- LOOKUP is the only one of the pure commands whose response reads the block. -/
theorem pureResponse (h : k.SameToHost k') (i : Instr) : pureResponse i k = pureResponse i k' := by
  cases i with
  | lookup n => exact congrArg some (h.lookupNote n)
  | _ => rfl

end Block.SameToHost

/-! ### Instructions and steps -/

/-- Two machines that the host cannot tell apart. How often map_note was drawn may differ. -/
structure State.SameToHost (s u : State) : Prop where
  block : s.block.SameToHost u.block
  inbox : s.inbox = u.inbox
  outbox : s.outbox = u.outbox

/-- Completing a command with results that are the same to the host. -/
theorem State.SameToHost.complete {k k' : Block} {rs rs' : List Response} (h : s.SameToHost u)
    (hr : SameResult (k, rs) (k', rs')) (d d' : Nat) :
    State.SameToHost { s with block := k, draws := d, outbox := s.outbox ++ rs }
      { u with block := k', draws := d', outbox := u.outbox ++ rs' } :=
  ⟨hr.block, h.inbox, congrArg₂ (· ++ ·) h.outbox hr.answer⟩

theorem State.SameToHost.exec {i : Instr} (h : s.SameToHost u) (hs : exec i s = .next s')
    (hu : exec i u = .next u') : s'.SameToHost u' := by
  obtain ⟨r, hr, rfl⟩ | ⟨b, rfl, rfl⟩ | ⟨rfl, rfl⟩ | ⟨bytes, hi, rfl⟩ := exec_cases hs
  · rw [exec_of_pureResponse (h.block.pureResponse i ▸ hr)] at hu
    obtain rfl := State.answer_next_iff.1 hu
    exact h.complete ⟨h.block, rfl⟩ _ _
  · obtain rfl := State.answer_next_iff.1 (exec_feed u b ▸ hu)
    have hfeed := h.block.feedByte maxFrame b
    exact h.complete ⟨hfeed.block, congrArg (fun r => [r]) hfeed.answer⟩ _ _
  · obtain rfl := State.answer_next_iff.1 (exec_reset u ▸ hu)
    have hblock := Block.SameToHost.initial (drawnNotes s.draws) (drawnNotes u.draws)
    exact h.complete ⟨hblock, rfl⟩ (s.draws + 1) (u.draws + 1)
  · obtain rfl := State.receive_next_iff.1 (exec_frame u hi ▸ hu)
    exact h.complete (h.block.feedBytes maxFrame bytes) _ _

/-- Equal streams give the same instruction, or none, to both machines. -/
theorem State.SameToHost.step (h : s.SameToHost u) (hs : step s = .next s') (hu : step u = .next u') :
    s'.SameToHost u' := by
  obtain ⟨hnone, rfl⟩ | ⟨i, rest, hfetch, hexec⟩ := step_cases hs
  · obtain ⟨_, rfl⟩ | ⟨i, rest, hfetch, _⟩ := step_cases hu
    · exact h
    · rw [h.inbox, hfetch] at hnone
      cases hnone
  · rw [step_of_fetch (h.inbox ▸ hfetch)] at hu
    have hrest : State.SameToHost { s with inbox := rest } { u with inbox := rest } :=
      ⟨h.block, rfl, h.outbox⟩
    exact hrest.exec hexec hu

/-! ### The obligations -/

/-- Settles O44: no instruction reads a map_note that is not established, so that a step keeps two machines the same to
the host. -/
theorem unestablishedMapCannotBeObserved : Obligations.UnestablishedMapCannotBeObserved := by
  intro a b a' b' hblock hin hout ha hb
  have h : a'.SameToHost b' := State.SameToHost.step ⟨hblock, hin, hout⟩ ha hb
  exact ⟨h.block, h.inbox, h.outbox⟩

/-- Settles O4: the block at power-on is one that ResetState leaves. -/
theorem powerOnStateIsIdleWithNoMap : Obligations.PowerOnStateIsIdleWithNoMap := by
  have hblock : State.reset.block = Block.initial (Vector.replicate 64 0) := rfl
  unfold Obligations.PowerOnStateIsIdleWithNoMap
  rw [hblock]
  exact ⟨Block.initial_rxMode _, Block.initial_rxBuf _, Block.initial_rxOvf _, Block.initial_mapValid _⟩

/-- Settles O37: the fetch finds nothing in an empty stream. -/
theorem blockWaitsWhereNothingIsIssued : Obligations.BlockWaitsWhereNothingIsIssued :=
  fun _ hempty => step_of_empty hempty

end Sys2Proof.Machine
end
